-- ==== Sys2Proof/Word.lean ====
section
/-! DEFINITION. The register width of RBVE (00_scope.md R7: 32 bits) and its byte. -/

namespace Sys2Proof

/-- A 32-bit register or field (00_scope.md R7). -/
abbrev Word := BitVec 32

/-- One byte: a pixel (R29), a sample data byte (R31), a volume or pan code (R25). -/
abbrev Byte := BitVec 8

end Sys2Proof
end

