-- ==== Sys2Proof/Syntax.lean ====
section
/-! DEFINITION. The 26 commands of 30_encoding.md R55. A command word carries no operand (R54): operands are the ARG
registers at the CMD write (R56), so no constructor has a field. -/

namespace Sys2Proof

/-- One constructor per row of spec/opcode_table.json (R55). -/
inductive Instr where
  /-- R66. -/
  | nop
  /-- R67: `createSurface`. -/
  | screate
  /-- R68: `destroySurface`. -/
  | sdestroy
  /-- R69: `clear`. -/
  | sclear
  /-- R70: pixel read. -/
  | sgetpix
  /-- R71: pixel write. -/
  | sputpix
  /-- R72: dimensions read. -/
  | sinfo
  /-- R74: `maskedBlit`. -/
  | blitMasked
  /-- R75: `maskedStretchBlit`. -/
  | blitStretch
  /-- R77: sample creation. -/
  | smpcreate
  /-- R78: sample destruction. -/
  | smpdestroy
  /-- R79: sample data write. -/
  | smpwrite
  /-- R80: sample data read. -/
  | smpread
  /-- R81: sample metadata read. -/
  | smpinfo
  /-- R83: `initPool`. -/
  | pinit
  /-- R84: `allocate`. -/
  | valloc
  /-- R85: `deallocate`. -/
  | vfree
  /-- R89: `setPlayMode`. -/
  | vplaymode
  /-- R90: `start`. -/
  | vstart
  /-- R91: `stop`. -/
  | vstop
  /-- R92: `setPosition`. -/
  | vsetpos
  /-- R93: `setFrequency`. -/
  | vsetfreq
  /-- R94: `setVolume`. -/
  | vsetvol
  /-- R95: `setPan`. -/
  | vsetpan
  /-- R96: `sweepFrequency`. -/
  | vsweepfreq
  /-- R97: `rampVolume`. -/
  | vrampvol
deriving DecidableEq, Repr

/-- Every command, in the order of R55. -/
def Instr.all : List Instr :=
  [.nop, .screate, .sdestroy, .sclear, .sgetpix, .sputpix, .sinfo, .blitMasked, .blitStretch, .smpcreate, .smpdestroy,
   .smpwrite, .smpread, .smpinfo] ++
  [.pinit, .valloc, .vfree, .vplaymode, .vstart, .vstop, .vsetpos, .vsetfreq, .vsetvol, .vsetpan, .vsweepfreq, .vrampvol]

end Sys2Proof
end

