-- ==== Sys2Proof/Decode.lean ====
section
/-! DEFINITION. The command word (30_encoding.md R54, R55, R58, R59): the decoder, total on 32-bit words and rejecting by
name, and after it the encoder. -/

namespace Sys2Proof

/-- Why a command word is no command (R58). Either one raises ILLEGAL. -/
inductive DecodeError where
  /-- CMD[31:8] is not 0. -/
  | reservedBits
  /-- CMD[31:8] is 0 and CMD[7:0] is not an opcode of R55. -/
  | unassignedOpcode
deriving DecidableEq, Repr

/-- The field `op` of a command word, CMD[7:0] (R54). -/
def wordOp (w : Word) : BitVec 8 := w.extractLsb' 0 8

/-- The field `rsv` of a command word, CMD[31:8] (R54). -/
def wordRsv (w : Word) : BitVec 24 := w.extractLsb' 8 24

/-- The opcode map of R55, read from opcode to command. -/
def opcodeRows : List (BitVec 8 × Instr) :=
  [(0x00, .nop),
   (0x10, .screate), (0x11, .sdestroy), (0x12, .sclear), (0x13, .sgetpix), (0x14, .sputpix), (0x15, .sinfo),
   (0x20, .blitMasked), (0x21, .blitStretch)] ++
  [(0x30, .smpcreate), (0x31, .smpdestroy), (0x32, .smpwrite), (0x33, .smpread), (0x34, .smpinfo),
   (0x40, .pinit), (0x41, .valloc), (0x42, .vfree)] ++
  [(0x50, .vplaymode), (0x51, .vstart), (0x52, .vstop), (0x53, .vsetpos), (0x54, .vsetfreq), (0x55, .vsetvol),
   (0x56, .vsetpan), (0x57, .vsweepfreq), (0x58, .vrampvol)]

/-- The command an opcode selects, looked up in a list of rows. -/
def lookupOpcode (op : BitVec 8) : List (BitVec 8 × Instr) → Option Instr
  | [] => none
  | row :: rows => if row.1 = op then some row.2 else lookupOpcode op rows

/-- R59: "A decoder reads one 32-bit word and looks up CMD[7:0] when CMD[31:8] = 0". -/
def decode (w : Word) : Except DecodeError Instr :=
  if wordRsv w = 0 then
    match lookupOpcode (wordOp w) opcodeRows with
    | some i => .ok i
    | none => .error .unassignedOpcode
  else .error .reservedBits

/-- The opcode of a command (R55). -/
def opcodeOf : Instr → BitVec 8
  | .nop => 0x00
  | .screate => 0x10
  | .sdestroy => 0x11
  | .sclear => 0x12
  | .sgetpix => 0x13
  | .sputpix => 0x14
  | .sinfo => 0x15
  | .blitMasked => 0x20
  | .blitStretch => 0x21
  | .smpcreate => 0x30
  | .smpdestroy => 0x31
  | .smpwrite => 0x32
  | .smpread => 0x33
  | .smpinfo => 0x34
  | .pinit => 0x40
  | .valloc => 0x41
  | .vfree => 0x42
  | .vplaymode => 0x50
  | .vstart => 0x51
  | .vstop => 0x52
  | .vsetpos => 0x53
  | .vsetfreq => 0x54
  | .vsetvol => 0x55
  | .vsetpan => 0x56
  | .vsweepfreq => 0x57
  | .vrampvol => 0x58

/-- R55: "The match for each row is CMD = zext_32(op)". -/
def encode (i : Instr) : Word := (opcodeOf i).setWidth 32

/-- The command the decoder reads from the `nbits` low bits of `w`, the other bits of the command word being 0. A command
word is one 32-bit register value and is not laid out in memory (20_memory.md R40), so no byte order enters. -/
def decodeTableWord (nbits w : Nat) : Option Instr :=
  match decode (BitVec.ofNat 32 (w % 2 ^ nbits)) with
  | .ok i => some i
  | .error _ => none

end Sys2Proof
end

