-- ==== Sys2Proof/Config.lean ====
section
/-! DEFINITION. What an implementation fixes (00_scope.md R7) and what the oracles answer (20_memory.md R45,
44_voice_pool.md R83). Only the defaults of R7 have a value here: the OPEN parameters of the machine and its oracles are
opaque constants. -/

namespace Sys2Proof

/-- `STEREO_BYTELEN_MODE` (R7, R87). -/
inductive StereoByteLen where
  /-- `len * bits / 8`, the default. -/
  | legacy
  /-- `len * bits / 8 * channels`. -/
  | fixed
deriving DecidableEq, Repr, Inhabited

/-- `BUS_ERROR_RESPONSE` (R7): which response the platform gives to an access outside the interface. The spec lists no
responses, so a number stands for each (log 8). -/
structure BusErrorResponse where
  number : Nat
deriving DecidableEq, Repr, Inhabited

/-- The parameters of R7 that are OPEN and have no default, each legal whatever the fields hold: a number that is at least 1 is
kept as one less. -/
structure OpenParameters where
  /-- `MAX_SURFACES - 1`; handles are nonzero 32-bit values (DEDUCED, log 6). -/
  surfacesLess1 : Fin 4294967295
  /-- `MAX_SAMPLES - 1` (DEDUCED, log 6). -/
  samplesLess1 : Fin 4294967295
  /-- `BACKEND_PRESENT`. -/
  backendPresent : Bool
  /-- `BLK_BASE / 4096`; the window is 4 KiB aligned (92_eei_decisions.md, OPEN parameters). -/
  blkPage : Nat
  /-- `BUS_ERROR_RESPONSE`. -/
  busErrorResponse : BusErrorResponse
deriving DecidableEq, Repr, Inhabited

/-- The parameters of R7: the OPEN ones, and the two that have a default, which stands where nothing else is given. -/
structure Config extends OpenParameters where
  /-- `MAX_VOICES - 1`; `MAX_VOICES` is 1..32, default 32. -/
  voicesLess1 : Fin 32 := 31
  /-- `STEREO_BYTELEN_MODE`, default `legacy`. -/
  stereoByteLen : StereoByteLen := .legacy
deriving DecidableEq, Repr

/-- `MAX_VOICES` (R7). -/
def Config.maxVoices (c : Config) : Nat := c.voicesLess1.val + 1

/-- `MAX_SURFACES` (R7). -/
def Config.maxSurfaces (c : Config) : Nat := c.surfacesLess1.val + 1

/-- `MAX_SAMPLES` (R7). -/
def Config.maxSamples (c : Config) : Nat := c.samplesLess1.val + 1

/-- `BLK_BASE` (R7). -/
def Config.blkBase (c : Config) : Nat := c.blkPage * 4096

/-- The bus address of register offset `off` (20_memory.md R38). -/
def Config.busAddress (c : Config) (off : Nat) : Nat := c.blkBase + off

/-- The register offset a bus address selects, if it lies in the block's window (R38). -/
def Config.offsetOf? (c : Config) (addr : Nat) : Option Nat :=
  if c.blkBase ≤ addr ∧ addr < c.blkBase + 0x1000 then some (addr - c.blkBase) else none

/-- One answer of the outside world to one question of the block: a question takes the part it needs. -/
structure OracleAnswer where
  /-- Allocation oracle (R45): a handle, or failure. -/
  handle : Option Nat
  /-- Contents draw (R45): the new buffer's nonzero bytes, as offset and value, in any order. -/
  contents : List Host.Cell
  /-- Init oracle (R83): `ok(mask)`, or `fail`. -/
  backendMask : Option Word
deriving DecidableEq, Repr, Inhabited

/-- FREE VALUE: the OPEN parameters of the machine at hand (R7). Nothing constrains them beyond their ranges (log 5). -/
opaque Config.openParameters : OpenParameters

/-- The parameters of the machine at hand (R7): the OPEN ones free, the others at their defaults (log 5). -/
def Config.machine : Config := { toOpenParameters := Config.openParameters }

/-- FREE VALUE: the answer to the n-th oracle question, where none was laid down in advance (R45, R83; log 3). -/
opaque Config.freeAnswer : Nat → OracleAnswer

end Sys2Proof
end

