-- ==== Sys2Proof/Machine/Access.lean ====
section
/-! DEFINITION. What the outside of the block can do to it: host bus accesses (20_memory.md R39), and the statements of the
assembly syntax that stand for them (30_encoding.md R60, R61). -/

namespace Sys2Proof

/-- One host bus access: `MemRead(BLK_BASE + off, size)` or `MemWrite(BLK_BASE + off, size, value)` (00_scope.md R9). -/
inductive BusAccess where
  | read (off size : Nat)
  | write (off size : Nat) (value : Word)
deriving DecidableEq, Repr

/-- One thing that happens to the block from outside (R123, R53, R112). -/
inductive Event where
  /-- A host bus access. -/
  | bus (a : BusAccess)
  /-- The display reader reads pixel (x, y) of surface h (R53). -/
  | display (h x y : Nat)
  /-- The platform asserts reset (R112). -/
  | reset
deriving DecidableEq, Repr

/-- A statement of the assembly syntax, its operands as 32-bit literals (R60, R61). -/
inductive Statement where
  /-- `MNEMONIC op0, ..., opn-1`. -/
  | command (i : Instr) (ops : List Word)
  /-- `WR off, val`. -/
  | wr (off : Nat) (val : Word)
  /-- `RD off`. -/
  | rd (off : Nat)
  /-- `SCOPY src, dst, w, h`. -/
  | scopy (src dst w h : Word)
  /-- `VRESTART v`. -/
  | vrestart (v : Word)
  /-- `VCENTER v`. -/
  | vcenter (v : Word)
  /-- `VPLAY v`. -/
  | vplay (v : Word)
deriving DecidableEq, Repr

end Sys2Proof
end

