-- ==== Sys2Proof/Machine/State.lean ====
section
/-! DEFINITION. The state of RBVE (10_state.md R13 to R35) as plain data, what stops the model, and the state after reset. -/

namespace Sys2Proof.Machine

/-- Why a command ends in a fault (R16, R99). A fault of RBVE is a NEXT state: it never stops the machine (R102). -/
inductive FaultCode where
  /-- 0x81. -/
  | illegal
  /-- 0x82. -/
  | badHandle
  /-- 0x83. -/
  | badArg
  /-- 0x84. -/
  | zeroDim
  /-- 0x85. -/
  | badVoice
  /-- 0x86. -/
  | poolNotReady
  /-- 0x87. -/
  | poolFailed
  /-- 0x88. -/
  | badState
  /-- 0x89. -/
  | sampleBusy
deriving DecidableEq, Repr

/-- What STATUS[7:0] holds (R16): "No other value is ever written to STATUS". -/
inductive Status where
  /-- 0x00. -/
  | ok
  /-- 0x01 NONE: no free voice. -/
  | noneFree
  /-- 0x02. -/
  | allocFail
  /-- 0x03. -/
  | initFail
  /-- 0x81 to 0x89. -/
  | fault (c : FaultCode)
deriving DecidableEq, Repr

/-- POOL_STATE[1:0] (R21); "The value 3 is never held". -/
inductive PoolState where
  /-- 0. -/
  | uninit
  /-- 1. -/
  | ready
  /-- 2. -/
  | failed
deriving DecidableEq, Repr

/-- Data by number, in one canonical form: numbers strictly rising (`Table.rising`). -/
abbrev Table (α : Type) := List (Nat × α)

/-- The bytes of one buffer: `Host.Cell`s, addresses strictly rising, no entry 0, which is what an unlisted address of a
buffer reads as (`Memory.wf`; log 9). The bytes a new buffer starts with are the oracle's draw (R45), never this 0. -/
abbrev Memory := List Host.Cell

/-- A live surface (R29). -/
structure Surface where
  w : BitVec 16
  h : BitVec 16
  pix : Memory
deriving DecidableEq, Repr

/-- The bit depth of a sample: 8 or 16 (R31). -/
inductive Depth where
  | bits8
  | bits16
deriving DecidableEq, Repr

/-- The channel count of a sample: 1 or 2 (R31). -/
inductive Channels where
  | mono
  | stereo
deriving DecidableEq, Repr

/-- A live sample (R31). -/
structure Sample where
  bits : Depth
  channels : Channels
  rate : Word
  len : Word
  loopStart : Word
  loopEnd : Word
  priority : Byte
  data : Memory
deriving DecidableEq, Repr

/-- A voice record (R25). -/
structure Voice where
  playing : Bool
  loop : Bool
  sample : Word
  position : Word
  rate : Word
  vol : Byte
  pan : Byte
deriving DecidableEq, Repr

/-- The record "after reset and after PINIT" (R25): all zero but pan, whose code 128 is normalized 0.0. -/
def Voice.initial : Voice :=
  { playing := false, loop := false, sample := 0, position := 0, rate := 0, vol := 0, pan := 128 }

/-- The sample format a PLAY names (R33). -/
inductive PlayFormat where
  | pcm8
  | pcm16
deriving DecidableEq, Repr

/-- An entry of BACKEND_LOG (R33). -/
inductive BackendCmd where
  | init
  | play (ch : Fin 32) (repeats : Bool) (format : PlayFormat) (rate : Word) (vol pan : Byte) (sample : Word)
      (bytelen : Nat)
  | setVolPan (ch : Fin 32) (vol pan : Byte)
  | setLoop (ch : Fin 32) (on : Bool)
  | silence (ch : Fin 32)
deriving DecidableEq, Repr

/-- The state of R13, and after it the model's own fields. -/
structure State where
  /-- CMD (R17). -/
  cmd : Word
  /-- STATUS (R16, R18). -/
  status : Status
  /-- RESULT (R18). -/
  result : Word
  /-- FAULT (R19): the first fault since reset, if any. -/
  fault : Option FaultCode
  /-- FAULT_CMD (R19). -/
  faultCmd : Word
  /-- ARG0..ARG9 (R20). -/
  args : Vector Word 10
  /-- POOL_STATE (R21). -/
  poolState : PoolState
  /-- CAPACITY (R22), bits [5:0]. -/
  capacity : BitVec 6
  /-- FREE_MASK (R23). -/
  freeMask : Word
  /-- AVAIL_MASK (R24). -/
  availMask : Word
  /-- The voice records (R25). Those at `MAX_VOICES` and above do not exist; nothing names them (log 11). -/
  voices : Vector Voice 32
  /-- The surface table (R29): an entry is listed exactly when it is valid (log 10). -/
  surfaces : Table Surface
  /-- The sample table (R31): an entry is listed exactly when it is valid (log 10). -/
  samples : Table Sample
  /-- BACKEND_LOG (R33), in order of emission. -/
  log : List BackendCmd
  /-- The model's own: the parameters of R7, which nothing changes (log 5). -/
  cfg : Config
  /-- The model's own: what will happen to the block from outside, oldest first (log 1). -/
  pending : List Event
  /-- The model's own: oracle answers laid down in advance; after them answers are free values (log 3). -/
  answers : List OracleAnswer
  /-- The model's own: how many oracle questions have been asked (log 3). -/
  asked : Nat
  /-- The model's own: what host reads returned, in order (R124; log 15). -/
  reads : List Word
  /-- The model's own: what the display reader was given, in order (R53; log 15). -/
  seen : List Byte
deriving DecidableEq, Repr

/-- What stops the machine with a fault. The faults of RBVE are not among these: they are next states (R102). -/
inductive Fault where
  /-- Raised by a display-reader event that names a pixel of no live surface: there is no such address in pixel space
  (20_memory.md R37, R53). Safe: the model stops. -/
  | noSuchPixel
deriving DecidableEq, Repr

/-- What the model refuses. A refused access names the response the platform would give, `BUS_ERROR_RESPONSE` (R7, R39);
what that response does is the platform's (log 8). -/
inductive Refusal where
  /-- Raised by `exec` for a command that has no meaning yet. Safe: the model stops. -/
  | notModelled (mnemonic : String)
  /-- Raised by a bus access of 8, 16 or 64 bits (R39, `BUS_ERROR_RESPONSE`). Safe: the model stops. -/
  | accessWidth (response : BusErrorResponse)
  /-- Raised by a misaligned bus access (R39, `BUS_ERROR_RESPONSE`). Safe: the model stops. -/
  | accessMisaligned (response : BusErrorResponse)
  /-- Raised by a bus access at or beyond offset 0x1000 (R39, `BUS_ERROR_RESPONSE`). Safe: the model stops. -/
  | accessBeyondWindow (response : BusErrorResponse)
  /-- Raised by a bus access to a reserved offset (R39, `BUS_ERROR_RESPONSE`). Safe: the model stops. -/
  | accessReserved (response : BusErrorResponse)
deriving DecidableEq, Repr

/-- The state after reset (R35, R112) of a machine with the given parameters, which the model takes as an argument (R7).
Nothing is pending and no oracle answer is laid down (log 2, log 3). -/
def State.resetWith (c : Config) : State :=
  { cmd := 0
    status := .ok
    result := 0
    fault := none
    faultCmd := 0
    args := Vector.replicate 10 0
    poolState := .uninit
    capacity := 0
    freeMask := 0
    availMask := 0
    voices := Vector.replicate 32 Voice.initial
    surfaces := []
    samples := []
    log := []
    cfg := c
    pending := []
    answers := []
    asked := 0
    reads := []
    seen := [] }

/-- The state after reset of the machine at hand (log 5). -/
def State.reset : State := State.resetWith Config.machine

end Sys2Proof.Machine
end

