-- ==== Sys2Proof/Machine/Flags.lean ====
section
/-! DEFINITION. Status codes, how a command ends without a fault, and the normalized volume and pan
(10_state.md R16, R18, R21; 45_voice_control.md R88). -/

namespace Sys2Proof.Machine

/-- Fault codes (R16). -/
def FaultCode.code : FaultCode → BitVec 8
  | .illegal => 0x81
  | .badHandle => 0x82
  | .badArg => 0x83
  | .zeroDim => 0x84
  | .badVoice => 0x85
  | .poolNotReady => 0x86
  | .poolFailed => 0x87
  | .badState => 0x88
  | .sampleBusy => 0x89

/-- Status codes (R16). -/
def Status.code : Status → BitVec 8
  | .ok => 0x00
  | .noneFree => 0x01
  | .allocFail => 0x02
  | .initFail => 0x03
  | .fault c => c.code

/-- A status with bit 7 set: a fault (R16). -/
def Status.isFault : Status → Bool
  | .ok => false
  | .noneFree => false
  | .allocFail => false
  | .initFail => false
  | .fault _ => true

/-- POOL_STATE[1:0] (R21). -/
def PoolState.code : PoolState → BitVec 2
  | .uninit => 0
  | .ready => 1
  | .failed => 2

/-- A voice or repeat flag as a register bit. -/
def flagBit (b : Bool) : Word := if b then 1 else 0

/-- `complete(status, result)` (00_scope.md R9): the command ends without a fault. -/
def State.complete (s : State) (st : Status) (r : Word) : State :=
  { s with status := st, result := r }

/-- `volume_n` (R88): an exact rational (00_scope.md R10). -/
def volumeN (vol : Byte) : ℚ := (vol.toNat : ℚ) / 255

/-- `pan_n` (R88): an exact rational (00_scope.md R10). -/
def panN (pan : Byte) : ℚ := ((pan.toNat : ℚ) - 128) / 128

end Sys2Proof.Machine
end

