-- ==== Sys2Proof/Machine/Table.lean ====
section
/-! DEFINITION. Reading and writing the two stores of plain data: tables by handle (10_state.md R29, R31) and the bytes of a
buffer (20_memory.md R37). -/

namespace Sys2Proof.Machine

/-- The entry a number names, if there is one. -/
def Table.find {α : Type} : Table α → Nat → Option α
  | [], _ => none
  | e :: t, a => if a = e.1 then some e.2 else Table.find t a

/-- Set the entry of a number, keeping the numbers in rising order. -/
def Table.insert {α : Type} : Table α → Nat → α → Table α
  | [], a, x => [(a, x)]
  | e :: t, a, x =>
    if a < e.1 then (a, x) :: e :: t
    else if a = e.1 then (a, x) :: t
    else e :: Table.insert t a x

/-- Take the entry of a number away. -/
def Table.erase {α : Type} : Table α → Nat → Table α
  | [], _ => []
  | e :: t, a => if a = e.1 then Table.erase t a else e :: Table.erase t a

/-- The canonical form of a table: its numbers strictly rise. -/
abbrev Table.rising {α : Type} (t : Table α) : Prop := (t.map Prod.fst).Pairwise (· < ·)

/-- The byte at an address of a buffer; an unlisted address reads as 0 (log 9). -/
def Memory.read (m : Memory) (a : Nat) : Byte := (Table.find m a).getD 0

/-- Write one byte; writing 0 takes the entry away, so the form stays canonical. -/
def Memory.write (m : Memory) (a : Nat) (v : Byte) : Memory :=
  if v = 0 then Table.erase m a else Table.insert m a v

/-- The canonical form of a buffer: addresses strictly rise and no entry is what an unlisted address reads as. -/
abbrev Memory.wf (m : Memory) : Prop := Table.rising m ∧ ∀ c ∈ m, c.2 ≠ 0

/-- Every listed address lies in a buffer of `size` bytes. -/
abbrev Memory.within (size : Nat) (m : Memory) : Prop := ∀ c ∈ m, c.1 < size

/-- A new buffer of `size` bytes holding the oracle's draw (R45): the bytes drawn inside it, of which the first named wins. -/
def Memory.ofDraw (size : Nat) : List Host.Cell → Memory
  | [] => []
  | c :: rest =>
    if c.1 < size then Memory.write (Memory.ofDraw size rest) c.1 c.2 else Memory.ofDraw size rest

end Sys2Proof.Machine
end

