-- ==== Sys2Proof/Machine/Ops.lean ====
section
/-! DEFINITION. The shared operations: arguments, raising a fault, surfaces and pixels, samples and bytes, voices, the
backend log, the oracles, and counted loops. -/

namespace Sys2Proof.Machine

/-- What one step answers. -/
abbrev StepResult := Host.Outcome State Fault Refusal

/-! ### Arguments -/

/-- `ARG[k]` (R20). -/
def State.arg (s : State) (k : Fin 10) : Word := s.args[k]

/-- `ARG[k]` as the unsigned integer it is (30_encoding.md R57: zero-extended, nothing scaled). -/
def State.argN (s : State) (k : Fin 10) : Nat := (s.arg k).toNat

/-! ### The fault -/

/-- Fault entry, `raise Fault(code)` (R64, R102): STATUS takes the code, and FAULT and FAULT_CMD latch the first fault since
reset (R19). Nothing else changes. There is no return from a fault (R104): nothing is saved that could be restored. -/
def State.raiseFault (s : State) (c : FaultCode) : State :=
  match s.fault with
  | none => { s with status := .fault c, fault := some c, faultCmd := s.cmd }
  | some _ => { s with status := .fault c }

/-- One check of a command: whether it passes, and the fault raised if it does not. -/
abbrev Check := Bool × FaultCode

/-- The fault of the first check that fails. -/
def firstFault : List Check → Option FaultCode
  | [] => none
  | c :: rest => if c.1 then firstFault rest else some c.2

/-- R63: a body first does all its checks, in order; "the first failed check raises its fault, and no effect of the body has
happened yet"; then it makes its effects. -/
def State.guarded (s : State) (checks : List Check) (effect : State → State) : State :=
  match firstFault checks with
  | some c => s.raiseFault c
  | none => effect s

/-- A command: it always ends in a next state (R102). -/
def command (s : State) (checks : List Check) (effect : State → State) : StepResult :=
  .next (s.guarded checks effect)

/-! ### Counted loops -/

/-- `for i in 0 .. n-1`, ascending. -/
def forUpto {σ : Type} : Nat → (Nat → σ → σ) → σ → σ
  | 0, _, s => s
  | n + 1, f, s => f n (forUpto n f s)

/-! ### Surfaces and pixels -/

/-- The live surface a handle names; handle 0 names none (R29, `live_surface` of R9). -/
def State.surface? (s : State) (h : Nat) : Option Surface :=
  if h = 0 then none else Table.find s.surfaces h

/-- `live_surface(h)` (R9). -/
def State.liveSurface (s : State) (h : Nat) : Bool := (s.surface? h).isSome

/-- `surf[h].w` of a live surface. -/
def State.width (s : State) (h : Nat) : Nat :=
  match s.surface? h with
  | some S => S.w.toNat
  | none => 0

/-- `surf[h].h` of a live surface. -/
def State.height (s : State) (h : Nat) : Nat :=
  match s.surface? h with
  | some S => S.h.toNat
  | none => 0

/-- Where pixel (x, y) of a surface lies in its buffer (20_memory.md R42). -/
def pixelAddr (S : Surface) (x y : Nat) : Nat := y * S.w.toNat + x

/-- `PixRead(h, x, y)` (R9). -/
def State.pixel (s : State) (h x y : Nat) : Byte :=
  match s.surface? h with
  | some S => Memory.read S.pix (pixelAddr S x y)
  | none => 0

/-- Set the entry of a surface handle. -/
def State.putSurface (s : State) (h : Nat) (S : Surface) : State :=
  { s with surfaces := Table.insert s.surfaces h S }

/-- Make a surface handle invalid. -/
def State.dropSurface (s : State) (h : Nat) : State :=
  { s with surfaces := Table.erase s.surfaces h }

/-- `PixWrite(h, x, y, v)` (R9). -/
def State.setPixel (s : State) (h x y : Nat) (v : Byte) : State :=
  match s.surface? h with
  | some S => s.putSurface h { S with pix := Memory.write S.pix (pixelAddr S x y) v }
  | none => s

/-! ### Samples and their data -/

/-- Bytes in one frame of one channel (R32). -/
def Depth.bytes : Depth → Nat
  | .bits8 => 1
  | .bits16 => 2

/-- The bit depth as a number. -/
def Depth.toNat : Depth → Nat
  | .bits8 => 8
  | .bits16 => 16

/-- The channel count as a number. -/
def Channels.toNat : Channels → Nat
  | .mono => 1
  | .stereo => 2

/-- `len * (bits == 8 ? 1 : 2) * (channels == 2 ? 2 : 1)` (R32). -/
def dataSize (len : Word) (bits : Depth) (channels : Channels) : Nat := len.toNat * bits.bytes * channels.toNat

/-- `size(m)` (R32). -/
def Sample.size (m : Sample) : Nat := dataSize m.len m.bits m.channels

/-- `bytelen(m)` (45_voice_control.md R87), exact. -/
def byteLen (mode : StereoByteLen) (m : Sample) : Nat :=
  match mode with
  | .legacy => m.len.toNat * m.bits.toNat / 8
  | .fixed => m.len.toNat * m.bits.toNat / 8 * m.channels.toNat

/-- The live sample a handle names; handle 0 names none (R31, `live_sample` of R9). -/
def State.sample? (s : State) (m : Nat) : Option Sample :=
  if m = 0 then none else Table.find s.samples m

/-- `live_sample(m)` (R9). -/
def State.liveSample (s : State) (m : Nat) : Bool := (s.sample? m).isSome

/-- `size(m)` of a live sample. -/
def State.sampleSize (s : State) (m : Nat) : Nat :=
  match s.sample? m with
  | some M => M.size
  | none => 0

/-- `SmpRead(m, i)` (R9). -/
def State.sampleByte (s : State) (m i : Nat) : Byte :=
  match s.sample? m with
  | some M => Memory.read M.data i
  | none => 0

/-- Set the entry of a sample handle. -/
def State.putSample (s : State) (m : Nat) (M : Sample) : State :=
  { s with samples := Table.insert s.samples m M }

/-- Make a sample handle invalid. -/
def State.dropSample (s : State) (m : Nat) : State :=
  { s with samples := Table.erase s.samples m }

/-- `SmpWrite(m, i, v)` (R9). -/
def State.setSampleByte (s : State) (m i : Nat) (v : Byte) : State :=
  match s.sample? m with
  | some M => s.putSample m { M with data := Memory.write M.data i v }
  | none => s

/-! ### Oracles -/

/-- The answer to the next oracle question: the one laid down in advance, else a free value (log 3). -/
def State.nextAnswer (s : State) : OracleAnswer :=
  match s.answers with
  | a :: _ => a
  | [] => Config.freeAnswer s.asked

/-- The state once the next oracle question has been asked. -/
def State.asking (s : State) : State :=
  { s with answers := s.answers.tail, asked := s.asked + 1 }

/-- What the allocation oracle may answer (R45): a handle of the table that is not live, or failure. An answer that names any
other handle is no answer the oracle may give, and counts as failure, which it may always give (log 4). -/
def admittedHandle (max : Nat) (live : Nat → Bool) : Option Nat → Option Nat
  | some h => if 1 ≤ h ∧ h ≤ max ∧ live h = false then some h else none
  | none => none

/-- `AllocSurface` (R67): the handle of the next answer, or failure. -/
def State.allocSurface (s : State) : Option Nat :=
  admittedHandle s.cfg.maxSurfaces s.liveSurface s.nextAnswer.handle

/-- `AllocSample` (R77): the handle of the next answer, or failure. -/
def State.allocSample (s : State) : Option Nat :=
  admittedHandle s.cfg.maxSamples s.liveSample s.nextAnswer.handle

/-! ### Voices and the backend -/

/-- `voice[v]` (R25). -/
def State.voice (s : State) (v : Fin 32) : Voice := s.voices[v]

/-- Write the record of a voice. -/
def State.setVoice (s : State) (v : Fin 32) (V : Voice) : State :=
  { s with voices := s.voices.set v V }

/-- `emit E` (R9, R33). -/
def State.emit (s : State) (e : BackendCmd) : State :=
  { s with log := s.log ++ [e] }

/-- FREE_MASK[v] (R23). -/
def State.isFree (s : State) (v : Fin 32) : Bool := s.freeMask.getLsbD v

/-- `FREE_MASK[v] <- 1`. -/
def State.markFree (s : State) (v : Fin 32) : State :=
  { s with freeMask := s.freeMask ||| (1#32 <<< v.val) }

/-- `FREE_MASK[v] <- 0`. -/
def State.markUsed (s : State) (v : Fin 32) : State :=
  { s with freeMask := s.freeMask &&& ~~~(1#32 <<< v.val) }

/-- The hardware format of a bit depth (R86). -/
def playFormat : Depth → PlayFormat
  | .bits8 => .pcm8
  | .bits16 => .pcm16

/-- `do_start(v)` (R86): a free slot, an absent sample and an absent data buffer are silent guards. -/
def State.startVoice (s : State) (v : Fin 32) : State :=
  if s.isFree v then s
  else
    match s.sample? (s.voice v).sample.toNat with
    | none => s
    | some M =>
      if M.size = 0 then s
      else
        (s.setVoice v { s.voice v with playing := true }).emit
          (.play v (s.voice v).loop (playFormat M.bits) (s.voice v).rate (s.voice v).vol (s.voice v).pan
            (s.voice v).sample (byteLen s.cfg.stereoByteLen M))

end Sys2Proof.Machine
end

