-- ==== Sys2Proof/Machine/Slots.lean ====
section
/-! DEFINITION. Operand slots (30_encoding.md R56): which ARG registers a command reads, and the class of each (R57). -/

namespace Sys2Proof

/-- The operand classes of R57. -/
inductive OperandClass where
  /-- 1..65535. -/
  | dim
  /-- 0..65535. -/
  | c16
  /-- 0..255. -/
  | byte
  /-- Any value. -/
  | u32
  /-- A live surface handle. -/
  | surf
  /-- 0 or a live surface handle. -/
  | surf0
  /-- A live sample handle. -/
  | smp
  /-- 0 or a live sample handle. -/
  | smp0
  /-- A valid voice id. -/
  | voice
  /-- 8 or 16. -/
  | bits
  /-- 1 or 2. -/
  | channels
  /-- 0..6. -/
  | field
  /-- 0..`MAX_VOICES`. -/
  | cap
deriving DecidableEq, Repr

/-- The table of R56: the class of each ARG register a command reads, from ARG0 on. -/
def slots : Instr → List OperandClass
  | .nop => []
  | .screate => [.dim, .dim]
  | .sdestroy => [.surf0]
  | .sclear => [.surf, .byte]
  | .sgetpix => [.surf, .c16, .c16]
  | .sputpix => [.surf, .c16, .c16, .byte]
  | .sinfo => [.surf]
  | .blitMasked => [.surf, .surf, .c16, .c16, .c16, .c16, .c16, .c16]
  | .blitStretch => [.surf, .surf, .c16, .c16, .c16, .c16, .c16, .c16, .c16, .c16]
  | .smpcreate => [.bits, .channels, .u32, .u32]
  | .smpdestroy => [.smp0]
  | .smpwrite => [.smp, .u32, .byte]
  | .smpread => [.smp, .u32]
  | .smpinfo => [.smp, .field]
  | .pinit => [.cap]
  | .valloc => [.smp0]
  | .vfree => [.voice]
  | .vplaymode => [.voice, .u32]
  | .vstart => [.voice]
  | .vstop => [.voice]
  | .vsetpos => [.voice, .u32]
  | .vsetfreq => [.voice, .u32]
  | .vsetvol => [.voice, .byte]
  | .vsetpan => [.voice, .byte]
  | .vsweepfreq => [.voice, .u32, .u32]
  | .vrampvol => [.voice, .u32, .byte]

end Sys2Proof
end

