-- ==== Sys2Proof/Machine/Operands.lean ====
section
/-! DEFINITION. The operand classes of 30_encoding.md R57 as checks on an ARG register, each with the fault it raises, and
the pool checks of 44_voice_pool.md R82. -/

namespace Sys2Proof.Machine

/-- Class `dim`: 1..65535. -/
def dimCheck (s : State) (k : Fin 10) : Check := (decide (1 ≤ s.argN k ∧ s.argN k ≤ 65535), .badArg)

/-- Class `c16`: `ok16`. -/
def c16Check (s : State) (k : Fin 10) : Check := (decide (s.argN k < 2 ^ 16), .badArg)

/-- Class `byte`: 0..255. -/
def byteCheck (s : State) (k : Fin 10) : Check := (decide (s.argN k ≤ 255), .badArg)

/-- Class `surf`: a live surface handle. -/
def surfCheck (s : State) (k : Fin 10) : Check := (s.liveSurface (s.argN k), .badHandle)

/-- Class `surf0`: 0 or a live surface handle. -/
def surf0Check (s : State) (k : Fin 10) : Check := (decide (s.argN k = 0) || s.liveSurface (s.argN k), .badHandle)

/-- Class `smp`: a live sample handle. -/
def smpCheck (s : State) (k : Fin 10) : Check := (s.liveSample (s.argN k), .badHandle)

/-- Class `smp0`: 0 or a live sample handle. -/
def smp0Check (s : State) (k : Fin 10) : Check := (decide (s.argN k = 0) || s.liveSample (s.argN k), .badHandle)

/-- Class `{8,16}`. -/
def bitsCheck (s : State) (k : Fin 10) : Check := (decide (s.argN k = 8 ∨ s.argN k = 16), .badArg)

/-- Class `{1,2}`. -/
def channelsCheck (s : State) (k : Fin 10) : Check := (decide (s.argN k = 1 ∨ s.argN k = 2), .badArg)

/-- Class `0..6`. -/
def fieldCheck (s : State) (k : Fin 10) : Check := (decide (s.argN k ≤ 6), .badArg)

/-- Class `0..MAX_VOICES`. -/
def capCheck (s : State) (k : Fin 10) : Check := (decide (s.argN k ≤ s.cfg.maxVoices), .badArg)

/-- A voice id is valid when it is below CAPACITY and its AVAIL_MASK bit is 1 (R22). -/
def State.validVoice (s : State) (id : Nat) : Bool :=
  decide (id < s.capacity.toNat) && s.availMask.getLsbD id

/-- Class `voice`: a valid voice id. -/
def voiceCheck (s : State) (k : Fin 10) : Check := (s.validVoice (s.argN k), .badVoice)

/-- `pool_check()` (R82). -/
def poolChecks (s : State) : List Check :=
  [(decide (s.poolState ≠ .uninit), .poolNotReady), (decide (s.poolState ≠ .failed), .poolFailed)]

/-- What a command that takes a voice id runs first: `pool_check()`, then `voice_check(ARG[0])` (R82). -/
def voiceChecks (s : State) : List Check := poolChecks s ++ [voiceCheck s 0]

/-- The slot a valid voice id names: a valid id is below 32, the number of mask bits. -/
def voiceSlot (id : Nat) : Fin 32 := Fin.ofNat 32 id

/-- The voice a voice command acts on: ARG0. -/
def State.voiceArg (s : State) : Fin 32 := voiceSlot (s.argN 0)

/-- Whether a voice with playing = 1 references a sample (R78). -/
def State.sampleBusy (s : State) (m : Nat) : Bool :=
  (List.range s.cfg.maxVoices).any fun i =>
    (s.voice (voiceSlot i)).playing && decide ((s.voice (voiceSlot i)).sample.toNat = m)

end Sys2Proof.Machine
end

