-- ==== Sys2Proof/Machine/BlitCmds.lean ====
section
/-! DEFINITION. The blit commands (42_blit.md). -/

namespace Sys2Proof.Machine

/-- One visited offset of a blit (R73): the source pixel is read, then the destination pixel is written if the value read is
not 0. -/
def State.copyPixel (s : State) (src sx sy dst dx dy : Nat) : State :=
  if s.pixel src sx sy = 0 then s else s.setPixel dst dx dy (s.pixel src sx sy)

/-- Visit the offsets (x, y), x < w and y < h, in row-major order (R73). `sx` and `sy` give the source column and row of an
offset; the destination wraps modulo its own dimensions (R44). -/
def State.blit (s : State) (src dst : Nat) (sx sy : Nat → Nat) (dstX dstY w h : Nat) : State :=
  forUpto h (fun y s =>
    forUpto w (fun x s =>
      s.copyPixel src (sx x) (sy y) dst ((dstX + x) % s.width dst) ((dstY + y) % s.height dst)) s) s

/-- Source column or row of BLIT_MASKED (R74): `(srcX + x) mod Sw`. -/
def maskedCoord (off size x : Nat) : Nat := (off + x) % size

/-- Source column or row of BLIT_STRETCH (R75): `(((x + srcX) * srcW) div dstW) mod Sw`, exact. -/
def stretchCoord (off num den size x : Nat) : Nat := (x + off) * num / den % size

/-- BLIT_MASKED src, dst, srcX, srcY, dstX, dstY, w, h (R74). -/
def execBlitMasked (s : State) : StepResult :=
  command s
    [surfCheck s 0, surfCheck s 1, c16Check s 2, c16Check s 3, c16Check s 4, c16Check s 5, c16Check s 6, c16Check s 7]
    fun s =>
      (s.blit (s.argN 0) (s.argN 1)
        (maskedCoord (s.argN 2) (s.width (s.argN 0))) (maskedCoord (s.argN 3) (s.height (s.argN 0)))
        (s.argN 4) (s.argN 5) (s.argN 6) (s.argN 7)).complete .ok 0

/-- BLIT_STRETCH src, dst, srcX, srcY, srcW, srcH, dstX, dstY, dstW, dstH (R75). -/
def execBlitStretch (s : State) : StepResult :=
  command s
    [surfCheck s 0, surfCheck s 1, c16Check s 2, c16Check s 3, c16Check s 4, c16Check s 5, c16Check s 6, c16Check s 7,
     c16Check s 8, c16Check s 9, (decide (s.argN 8 ≠ 0 ∧ s.argN 9 ≠ 0), .zeroDim)]
    fun s =>
      (s.blit (s.argN 0) (s.argN 1)
        (stretchCoord (s.argN 2) (s.argN 4) (s.argN 8) (s.width (s.argN 0)))
        (stretchCoord (s.argN 3) (s.argN 5) (s.argN 9) (s.height (s.argN 0)))
        (s.argN 6) (s.argN 7) (s.argN 8) (s.argN 9)).complete .ok 0

end Sys2Proof.Machine
end

