-- ==== Sys2Proof/Machine/General.lean ====
section
/-! DEFINITION. The general command (40_general.md). -/

namespace Sys2Proof.Machine

/-- NOP (R66). -/
def execNop (s : State) : StepResult :=
  command s [] fun s => s.complete .ok 0

end Sys2Proof.Machine
end

