-- ==== Sys2Proof/Machine/PoolCmds.lean ====
section
/-! DEFINITION. The voice pool commands (44_voice_pool.md). -/

namespace Sys2Proof.Machine

/-- The pool made READY with a capacity and the channels the backend reported (R83). -/
def State.readyPool (s : State) (cap : Nat) (reported : Word) : State :=
  { s with
    voices := Vector.replicate 32 Voice.initial
    availMask := reported &&& BitVec.ofNat 32 (2 ^ cap - 1)
    freeMask := reported &&& BitVec.ofNat 32 (2 ^ cap - 1)
    capacity := BitVec.ofNat 6 cap
    poolState := .ready }

/-- The effect of PINIT once its checks pass (R83): with a backend, INIT is emitted and the init oracle asked; without one,
every channel is taken as reported. -/
def State.initPool (s : State) (cap : Nat) : State :=
  if s.cfg.backendPresent then
    match s.nextAnswer.backendMask with
    | none => { (s.emit .init).asking with poolState := .failed }.complete .initFail 0
    | some mask => ((s.emit .init).asking.readyPool cap mask).complete .ok 0
  else (s.readyPool cap 0xFFFFFFFF).complete .ok 0

/-- PINIT cap (R83). -/
def execPinit (s : State) : StepResult :=
  command s
    [(decide (s.poolState ≠ .ready), .badState), (decide (s.poolState ≠ .failed), .poolFailed), capCheck s 0]
    fun s => s.initPool (s.argN 0)

/-- The lowest free slot below CAPACITY (R84). -/
def State.lowestFree (s : State) : Option Nat :=
  (List.range s.capacity.toNat).find? fun i => s.freeMask.getLsbD i

/-- The rate a voice takes from the sample it is given: the sample's rate, 0 without a sample (R84). -/
def State.sampleRate (s : State) (m : Nat) : Word :=
  match s.sample? m with
  | some M => M.rate
  | none => 0

/-- VALLOC m (R84). -/
def execValloc (s : State) : StepResult :=
  command s (poolChecks s ++ [smp0Check s 0]) fun s =>
    match s.lowestFree with
    | none => s.complete .noneFree 0xFFFFFFFF
    | some i =>
      ((s.markUsed (voiceSlot i)).setVoice (voiceSlot i)
        { s.voice (voiceSlot i) with
          playing := false
          position := 0
          rate := s.sampleRate (s.argN 0)
          sample := s.arg 0 }).complete .ok (BitVec.ofNat 32 i)

/-- VFREE v (R85). -/
def execVfree (s : State) : StepResult :=
  command s (voiceChecks s) fun s =>
    (((s.emit (.silence s.voiceArg)).setVoice s.voiceArg
      { s.voice s.voiceArg with playing := false }).markFree s.voiceArg).complete .ok 0

end Sys2Proof.Machine
end

