-- ==== Sys2Proof/Machine/SampleCmds.lean ====
section
/-! DEFINITION. The sample commands (43_sample.md). -/

namespace Sys2Proof.Machine

/-- The bit depth an argument names, 8 or 16 (R77). -/
def depthOf (n : Nat) : Depth := if n = 8 then .bits8 else .bits16

/-- The channel count an argument names, 1 or 2 (R77). -/
def channelsOf (n : Nat) : Channels := if n = 2 then .stereo else .mono

/-- The entry SMPCREATE makes (R77): loop points 0 and len, priority 128, bytes drawn and not cleared. -/
def newSample (bits : Depth) (channels : Channels) (rate len : Word) (draw : List Host.Cell) : Sample :=
  { bits := bits
    channels := channels
    rate := rate
    len := len
    loopStart := 0
    loopEnd := len
    priority := 128
    data := Memory.ofDraw (dataSize len bits channels) draw }

/-- SMPCREATE bits, channels, rate, len (R77). -/
def execSmpcreate (s : State) : StepResult :=
  command s [bitsCheck s 0, channelsCheck s 1] fun s =>
    match s.allocSample with
    | none => s.asking.complete .allocFail 0
    | some r =>
      (s.asking.putSample r
        (newSample (depthOf (s.argN 0)) (channelsOf (s.argN 1)) (s.arg 2) (s.arg 3) s.nextAnswer.contents)).complete
          .ok (BitVec.ofNat 32 r)

/-- SMPDESTROY m (R78). -/
def execSmpdestroy (s : State) : StepResult :=
  command s [smp0Check s 0, (decide (s.argN 0 = 0) || !s.sampleBusy (s.argN 0), .sampleBusy)] fun s =>
    if s.argN 0 = 0 then s.complete .ok 0 else (s.dropSample (s.argN 0)).complete .ok 0

/-- The check of a data offset against the data size (R79, R80). -/
def offsetCheck (s : State) : Check := (decide (s.argN 1 < s.sampleSize (s.argN 0)), .badArg)

/-- SMPWRITE m, off, b (R79). -/
def execSmpwrite (s : State) : StepResult :=
  command s [smpCheck s 0, byteCheck s 2, offsetCheck s] fun s =>
    (s.setSampleByte (s.argN 0) (s.argN 1) (BitVec.ofNat 8 (s.argN 2))).complete .ok 0

/-- SMPREAD m, off (R80). -/
def execSmpread (s : State) : StepResult :=
  command s [smpCheck s 0, offsetCheck s] fun s =>
    s.complete .ok ((s.sampleByte (s.argN 0) (s.argN 1)).setWidth 32)

/-- `[bits, channels, rate, len, loopStart, loopEnd, priority][f]` of a sample (R81). -/
def Sample.metadata (m : Sample) : Nat → Word
  | 0 => BitVec.ofNat 32 m.bits.toNat
  | 1 => BitVec.ofNat 32 m.channels.toNat
  | 2 => m.rate
  | 3 => m.len
  | 4 => m.loopStart
  | 5 => m.loopEnd
  | _ => m.priority.setWidth 32

/-- A metadata field of a live sample. -/
def State.sampleField (s : State) (m f : Nat) : Word :=
  match s.sample? m with
  | some M => M.metadata f
  | none => 0

/-- SMPINFO m, f (R81). -/
def execSmpinfo (s : State) : StepResult :=
  command s [smpCheck s 0, fieldCheck s 1] fun s => s.complete .ok (s.sampleField (s.argN 0) (s.argN 1))

end Sys2Proof.Machine
end

