-- ==== Sys2Proof/Machine/SurfaceCmds.lean ====
section
/-! DEFINITION. The surface commands (41_surface.md). -/

namespace Sys2Proof.Machine

/-- The effect of SCREATE on a handle the oracle gave (R67): the entry made, its bytes drawn and not cleared. -/
def State.createSurface (s : State) (h : Nat) (w hgt : BitVec 16) (draw : List Host.Cell) : State :=
  s.putSurface h { w := w, h := hgt, pix := Memory.ofDraw (w.toNat * hgt.toNat) draw }

/-- SCREATE w, h (R67). -/
def execScreate (s : State) : StepResult :=
  command s [dimCheck s 0, dimCheck s 1] fun s =>
    match s.allocSurface with
    | none => s.asking.complete .allocFail 0
    | some r =>
      (s.asking.createSurface r (BitVec.ofNat 16 (s.argN 0)) (BitVec.ofNat 16 (s.argN 1))
        s.nextAnswer.contents).complete .ok (BitVec.ofNat 32 r)

/-- SDESTROY s (R68). -/
def execSdestroy (s : State) : StepResult :=
  command s [surf0Check s 0] fun s =>
    if s.argN 0 = 0 then s.complete .ok 0 else (s.dropSurface (s.argN 0)).complete .ok 0

/-- Write every pixel of a surface in row-major order (R69). -/
def State.fillSurface (s : State) (h : Nat) (c : Byte) : State :=
  forUpto (s.height h) (fun y s => forUpto (s.width h) (fun x s => s.setPixel h x y c) s) s

/-- SCLEAR s, c (R69). -/
def execSclear (s : State) : StepResult :=
  command s [surfCheck s 0, byteCheck s 1] fun s =>
    (s.fillSurface (s.argN 0) (BitVec.ofNat 8 (s.argN 1))).complete .ok 0

/-- SGETPIX s, x, y (R70). -/
def execSgetpix (s : State) : StepResult :=
  command s [surfCheck s 0, c16Check s 1, c16Check s 2] fun s =>
    s.complete .ok
      ((s.pixel (s.argN 0) (s.argN 1 % s.width (s.argN 0)) (s.argN 2 % s.height (s.argN 0))).setWidth 32)

/-- SPUTPIX s, x, y, c (R71): unmasked. -/
def execSputpix (s : State) : StepResult :=
  command s [surfCheck s 0, c16Check s 1, c16Check s 2, byteCheck s 3] fun s =>
    (s.setPixel (s.argN 0) (s.argN 1 % s.width (s.argN 0)) (s.argN 2 % s.height (s.argN 0))
      (BitVec.ofNat 8 (s.argN 3))).complete .ok 0

/-- SINFO s (R72): `w | (h << 16)`. -/
def execSinfo (s : State) : StepResult :=
  command s [surfCheck s 0] fun s =>
    s.complete .ok (BitVec.ofNat 32 (s.width (s.argN 0)) ||| (BitVec.ofNat 32 (s.height (s.argN 0)) <<< 16))

end Sys2Proof.Machine
end

