-- ==== Sys2Proof/Machine/VoiceCmds.lean ====
section
/-! DEFINITION. The voice control commands (45_voice_control.md). -/

namespace Sys2Proof.Machine

/-- Store a rate and, if the voice plays, restart it (R93, R96). -/
def State.setRate (s : State) (v : Fin 32) (rate : Word) : State :=
  if (s.voice v).playing then (s.setVoice v { s.voice v with rate := rate }).startVoice v
  else s.setVoice v { s.voice v with rate := rate }

/-- If the voice plays, send its volume and pan (R94, R95, R97). -/
def State.pushVolPan (s : State) (v : Fin 32) : State :=
  if (s.voice v).playing then s.emit (.setVolPan v (s.voice v).vol (s.voice v).pan) else s

/-- Store a volume code and, if the voice plays, send it (R94, R97). -/
def State.setVol (s : State) (v : Fin 32) (vol : Byte) : State :=
  (s.setVoice v { s.voice v with vol := vol }).pushVolPan v

/-- Store a pan code and, if the voice plays, send it (R95). -/
def State.setPan (s : State) (v : Fin 32) (pan : Byte) : State :=
  (s.setVoice v { s.voice v with pan := pan }).pushVolPan v

/-- VPLAYMODE v, mode (R89): bit 0 of mode only. -/
def execVplaymode (s : State) : StepResult :=
  command s (voiceChecks s) fun s =>
    ((s.setVoice s.voiceArg { s.voice s.voiceArg with loop := (s.arg 1).getLsbD 0 }).emit
      (.setLoop s.voiceArg ((s.arg 1).getLsbD 0))).complete .ok 0

/-- VSTART v (R90). -/
def execVstart (s : State) : StepResult :=
  command s (voiceChecks s) fun s => (s.startVoice s.voiceArg).complete .ok 0

/-- VSTOP v (R91). -/
def execVstop (s : State) : StepResult :=
  command s (voiceChecks s) fun s =>
    ((s.emit (.silence s.voiceArg)).setVoice s.voiceArg { s.voice s.voiceArg with playing := false }).complete .ok 0

/-- Store a position and, if the voice plays and the position is 0, restart it (R92). -/
def State.setPosition (s : State) (v : Fin 32) (pos : Word) : State :=
  if (s.voice v).playing ∧ pos = 0 then (s.setVoice v { s.voice v with position := pos }).startVoice v
  else s.setVoice v { s.voice v with position := pos }

/-- VSETPOS v, pos (R92). -/
def execVsetpos (s : State) : StepResult :=
  command s (voiceChecks s) fun s => (s.setPosition s.voiceArg (s.arg 1)).complete .ok 0

/-- VSETFREQ v, rate (R93). -/
def execVsetfreq (s : State) : StepResult :=
  command s (voiceChecks s) fun s => (s.setRate s.voiceArg (s.arg 1)).complete .ok 0

/-- VSETVOL v, vol (R94). -/
def execVsetvol (s : State) : StepResult :=
  command s (voiceChecks s ++ [byteCheck s 1]) fun s =>
    (s.setVol s.voiceArg (BitVec.ofNat 8 (s.argN 1))).complete .ok 0

/-- VSETPAN v, pan (R95). -/
def execVsetpan (s : State) : StepResult :=
  command s (voiceChecks s ++ [byteCheck s 1]) fun s =>
    (s.setPan s.voiceArg (BitVec.ofNat 8 (s.argN 1))).complete .ok 0

/-- VSWEEPFREQ v, time, rate (R96): time is ignored. -/
def execVsweepfreq (s : State) : StepResult :=
  command s (voiceChecks s) fun s => (s.setRate s.voiceArg (s.arg 2)).complete .ok 0

/-- VRAMPVOL v, time, vol (R97): time is ignored. -/
def execVrampvol (s : State) : StepResult :=
  command s (voiceChecks s ++ [byteCheck s 2]) fun s =>
    (s.setVol s.voiceArg (BitVec.ofNat 8 (s.argN 2))).complete .ok 0

end Sys2Proof.Machine
end

