-- ==== Sys2Proof/Machine/Dispatch.lean ====
section
/-! DEFINITION. The dispatch from a command to its meaning: the `body` of 40_general.md R63. -/

namespace Sys2Proof.Machine

def exec (i : Instr) (s : State) : Host.Outcome State Fault Refusal :=
  match i with
  | .nop => Sys2Proof.Machine.execNop s
  | .screate => Sys2Proof.Machine.execScreate s
  | .sdestroy => Sys2Proof.Machine.execSdestroy s
  | .sclear => Sys2Proof.Machine.execSclear s
  | .sgetpix => Sys2Proof.Machine.execSgetpix s
  | .sputpix => Sys2Proof.Machine.execSputpix s
  | .sinfo => Sys2Proof.Machine.execSinfo s
  | .blitMasked => Sys2Proof.Machine.execBlitMasked s
  | .blitStretch => Sys2Proof.Machine.execBlitStretch s
  | .smpcreate => Sys2Proof.Machine.execSmpcreate s
  | .smpdestroy => Sys2Proof.Machine.execSmpdestroy s
  | .smpwrite => Sys2Proof.Machine.execSmpwrite s
  | .smpread => Sys2Proof.Machine.execSmpread s
  | .smpinfo => Sys2Proof.Machine.execSmpinfo s
  | .pinit => Sys2Proof.Machine.execPinit s
  | .valloc => Sys2Proof.Machine.execValloc s
  | .vfree => Sys2Proof.Machine.execVfree s
  | .vplaymode => Sys2Proof.Machine.execVplaymode s
  | .vstart => Sys2Proof.Machine.execVstart s
  | .vstop => Sys2Proof.Machine.execVstop s
  | .vsetpos => Sys2Proof.Machine.execVsetpos s
  | .vsetfreq => Sys2Proof.Machine.execVsetfreq s
  | .vsetvol => Sys2Proof.Machine.execVsetvol s
  | .vsetpan => Sys2Proof.Machine.execVsetpan s
  | .vsweepfreq => Sys2Proof.Machine.execVsweepfreq s
  | .vrampvol => Sys2Proof.Machine.execVrampvol s

end Sys2Proof.Machine
end

