-- ==== Sys2Proof/Machine/RegMap.lean ====
section
/-! DEFINITION. The register map (10_state.md R15, R27): which register an offset of the window names,
and which accesses the interface admits (20_memory.md R39). -/

namespace Sys2Proof

/-- The fields of a VOICE[i] block (R27). -/
inductive VoiceReg where
  | vstate | vsample | vpos | vrate | vvol | vpan
deriving DecidableEq, Repr

/-- The mapped registers of R15. -/
inductive Reg where
  | cmd | status | result | fault | faultCmd
  | arg (k : Fin 10)
  | poolState | capacity | freeMask | availMask
  | voice (i : Fin 32) (r : VoiceReg)
deriving DecidableEq, Repr

/-- The offset of a field inside its VOICE block (R27). -/
def voiceRegOffset : VoiceReg → Nat
  | .vstate => 0x00
  | .vsample => 0x04
  | .vpos => 0x08
  | .vrate => 0x0C
  | .vvol => 0x10
  | .vpan => 0x14

/-- The field at an offset inside a VOICE block (R27); +0x18 and +0x1C are reserved. -/
def voiceRegAt (o : Nat) : Option VoiceReg :=
  if o = 0x00 then some .vstate
  else if o = 0x04 then some .vsample
  else if o = 0x08 then some .vpos
  else if o = 0x0C then some .vrate
  else if o = 0x10 then some .vvol
  else if o = 0x14 then some .vpan
  else none

/-- The offset of a register (R15). -/
def regOffset : Reg → Nat
  | .cmd => 0x000
  | .status => 0x004
  | .result => 0x008
  | .fault => 0x00C
  | .faultCmd => 0x010
  | .arg k => 0x020 + 4 * k.val
  | .poolState => 0x060
  | .capacity => 0x064
  | .freeMask => 0x068
  | .availMask => 0x06C
  | .voice i r => 0x100 + 0x20 * i.val + voiceRegOffset r

/-- The register at an aligned offset, `none` where R15 marks the offset reserved. VOICE[i] exists for
i < `MAX_VOICES` only. -/
def regAt (c : Config) (off : Nat) : Option Reg :=
  if off = 0x000 then some .cmd
  else if off = 0x004 then some .status
  else if off = 0x008 then some .result
  else if off = 0x00C then some .fault
  else if off = 0x010 then some .faultCmd
  else if 0x020 ≤ off ∧ off < 0x048 then some (.arg (Fin.ofNat 10 ((off - 0x020) / 4)))
  else if off = 0x060 then some .poolState
  else if off = 0x064 then some .capacity
  else if off = 0x068 then some .freeMask
  else if off = 0x06C then some .availMask
  else if 0x100 ≤ off ∧ off < 0x100 + 0x20 * c.maxVoices then
    (voiceRegAt ((off - 0x100) % 0x20)).map (.voice (Fin.ofNat 32 ((off - 0x100) / 0x20)))
  else none

/-- The four ways an access lies outside the interface (R39). -/
inductive AccessError where
  /-- "an access of 8, 16 or 64 bits". -/
  | width
  /-- "a misaligned access". -/
  | misaligned
  /-- "an access at or beyond 0x1000". -/
  | beyondWindow
  /-- "an access to a reserved offset". -/
  | reserved
deriving DecidableEq, Repr

/-- R39: "a 32-bit access at an offset that is a multiple of 4 and is mapped". -/
def admittedReg (c : Config) (off size : Nat) : Except AccessError Reg :=
  if size ≠ 4 then .error .width
  else if off % 4 ≠ 0 then .error .misaligned
  else if 0x1000 ≤ off then .error .beyondWindow
  else
    match regAt c off with
    | some r => .ok r
    | none => .error .reserved

end Sys2Proof
end

