-- ==== Sys2Proof/WellFormed.lean ====
section
/-! DEFINITION. Which bus accesses and which assembly statements are well-formed. A command itself has no field, so every
`Instr` is well-formed; what can be ill-formed is the access that carries it (20_memory.md R39) and the statement that
names it (30_encoding.md R60). -/

namespace Sys2Proof

/-- The interface admits the access (R39). -/
def BusAccess.wellFormed (c : Config) : BusAccess → Bool
  | .read off size => (admittedReg c off size).toOption.isSome
  | .write off size _ => (admittedReg c off size).toOption.isSome

/-- R60: a command statement has exactly the operands R56 lists; `WR` and `RD` name an admitted offset. -/
def Statement.wellFormed (c : Config) : Statement → Bool
  | .command i ops => decide (ops.length = (slots i).length)
  | .wr off _ => (admittedReg c off 4).toOption.isSome
  | .rd off => (admittedReg c off 4).toOption.isSome
  | .scopy _ _ _ _ => true
  | .vrestart _ => true
  | .vcenter _ => true
  | .vplay _ => true

end Sys2Proof
end

