-- ==== Sys2Proof/Machine/Bus.lean ====
section
/-! DEFINITION. The bus interface (20_memory.md R39) and what each event from outside does: register reads and writes, the
command cycle (40_general.md R63), reset (70_reset_and_hazards.md R112) and the display reader (R53). -/

namespace Sys2Proof.Machine

/-- VSTATE of a voice (R27). -/
def State.vstate (s : State) (i : Fin 32) : Word :=
  flagBit (s.voice i).playing ||| (flagBit (s.voice i).loop <<< 1) ||| (flagBit (s.isFree i) <<< 2)

/-- A field of a VOICE[i] block (R27). -/
def State.readVoiceReg (s : State) (i : Fin 32) : VoiceReg → Word
  | .vstate => s.vstate i
  | .vsample => (s.voice i).sample
  | .vpos => (s.voice i).position
  | .vrate => (s.voice i).rate
  | .vvol => (s.voice i).vol.setWidth 32
  | .vpan => (s.voice i).pan.setWidth 32

/-- What a host read of a register returns (R15). -/
def State.readReg (s : State) : Reg → Word
  | .cmd => s.cmd
  | .status => s.status.code.setWidth 32
  | .result => s.result
  | .fault => match s.fault with
    | some c => c.code.setWidth 32
    | none => 0
  | .faultCmd => s.faultCmd
  | .arg k => s.arg k
  | .poolState => s.poolState.code.setWidth 32
  | .capacity => s.capacity.setWidth 32
  | .freeMask => s.freeMask
  | .availMask => s.availMask
  | .voice i r => s.readVoiceReg i r

/-- The command cycle (R63): CMD takes the word, then the word is decoded and its command runs, or it raises ILLEGAL. -/
def runCommandWord (w : Word) (s : State) : StepResult :=
  match decode w with
  | .ok i => exec i { s with cmd := w }
  | .error _ => .next ({ s with cmd := w }.raiseFault .illegal)

/-- A host write to a register (R39): CMD executes a command, ARG stores, and "a write to a read-only register is ignored". -/
def writeReg (r : Reg) (value : Word) (s : State) : StepResult :=
  match r with
  | .cmd => runCommandWord value s
  | .arg k => .next { s with args := s.args.set k value }
  | .status | .result | .fault | .faultCmd | .poolState | .capacity | .freeMask | .availMask | .voice _ _ => .next s

/-- The refusal of an access outside the interface, which names the platform's response (R39). -/
def refusalOf (response : BusErrorResponse) : AccessError → Refusal
  | .width => .accessWidth response
  | .misaligned => .accessMisaligned response
  | .beyondWindow => .accessBeyondWindow response
  | .reserved => .accessReserved response

/-- One host bus access (R39). -/
def busAccess (a : BusAccess) (s : State) : StepResult :=
  match a with
  | .read off size =>
    match admittedReg s.cfg off size with
    | .ok r => .next { s with reads := s.reads ++ [s.readReg r] }
    | .error e => .refused (refusalOf s.cfg.busErrorResponse e)
  | .write off size value =>
    match admittedReg s.cfg off size with
    | .ok r => writeReg r value s
    | .error e => .refused (refusalOf s.cfg.busErrorResponse e)

/-- Reset (R112): every piece of the block's state takes its reset value. What lies outside the block stays: the parameters,
what is still to come, the oracle's counter, and what has been observed (log 14). -/
def State.afterReset (s : State) : State :=
  { State.resetWith s.cfg with
    pending := s.pending
    answers := s.answers
    asked := s.asked
    reads := s.reads
    seen := s.seen }

/-- The display reader reads a pixel of a live surface and changes nothing (R53). -/
def displayRead (h x y : Nat) (s : State) : StepResult :=
  if s.liveSurface h ∧ x < s.width h ∧ y < s.height h then .next { s with seen := s.seen ++ [s.pixel h x y] }
  else .fault .noSuchPixel

/-- What one event does. -/
def perform (e : Event) (s : State) : StepResult :=
  match e with
  | .bus a => busAccess a s
  | .display h x y => displayRead h x y s
  | .reset => .next s.afterReset

/-- The next event, if one is pending; else the block waits, "always ready for another access" (R124; log 1). -/
def nextEvent (s : State) : StepResult :=
  match s.pending with
  | [] => .next s
  | e :: rest => perform e { s with pending := rest }

end Sys2Proof.Machine
end

