-- ==== Sys2Proof/Machine/Step.lean ====
section
/-! DEFINITION. One step of the machine: one event from outside (20_memory.md R46, R47), and how the host places a command. -/

namespace Sys2Proof.Machine

/-- One step: the oldest pending event happens, whole. -/
def step (s : State) : Host.Outcome State Fault Refusal := nextEvent s

/-- The state in which the host is about to write the command word whose `nbits` low bits are `w`: a 32-bit write to CMD
stands first among the pending events, where the next step takes its command from (log 2). -/
def State.withFetchWord (s : State) (nbits w : Nat) : State :=
  { s with pending := .bus (.write 0x000 4 (BitVec.ofNat 32 (w % 2 ^ nbits))) :: s.pending }

end Sys2Proof.Machine
end

