-- ==== Sys2Proof/Machine/Assembler.lean ====
section
/-! DEFINITION. The assembly of host command programs (30_encoding.md R60 to R62): from a line of text to a statement, from
a statement to its bus writes, and a program laid before the block. -/

namespace Sys2Proof.Machine

/-! ### From statements to bus accesses -/

/-- `MemWrite(BLK_BASE + 0x020 + 4k, 4, opk)` for k upwards from `k` (R60). -/
def argWrites (k : Nat) : List Word → List BusAccess
  | [] => []
  | op :: rest => .write (0x020 + 4 * k) 4 op :: argWrites (k + 1) rest

/-- A command with its operands: n argument writes, then the CMD write; none for another operand count (R60). -/
def assembleCommand (i : Instr) (ops : List Word) : Option (List BusAccess) :=
  if ops.length = (slots i).length then some (argWrites 0 ops ++ [.write 0x000 4 (encode i)]) else none

/-- The bus accesses of one statement (R60), a pseudo-instruction through its expansion (R61). -/
def assemble : Statement → Option (List BusAccess)
  | .command i ops => assembleCommand i ops
  | .wr off val => some [.write off 4 val]
  | .rd off => some [.read off 4]
  | .scopy src dst w h => assembleCommand .blitMasked [src, dst, 0, 0, 0, 0, w, h]
  | .vrestart v => assembleCommand .vsetpos [v, 0]
  | .vcenter v => assembleCommand .vsetpan [v, 128]
  | .vplay v => assembleCommand .vstart [v]

/-- A program's encoding is the concatenation of its statements' (R62). -/
def assembleProgram : List Statement → Option (List BusAccess)
  | [] => some []
  | st :: rest =>
    match assemble st, assembleProgram rest with
    | some a, some b => some (a ++ b)
    | _, _ => none

/-- The writes of an encoding as `offset=value` pairs (R62). -/
def writePairs : List BusAccess → List (Nat × Word)
  | [] => []
  | .write off _ v :: rest => (off, v) :: writePairs rest
  | .read _ _ :: rest => writePairs rest

/-- A list of bus accesses laid before the block, ahead of what is already pending. -/
def State.withAccesses (s : State) (l : List BusAccess) : State :=
  { s with pending := l.map Event.bus ++ s.pending }

/-! ### From text to statements -/

/-- The mnemonics of R55. -/
def mnemonic : Instr → String
  | .nop => "NOP"
  | .screate => "SCREATE"
  | .sdestroy => "SDESTROY"
  | .sclear => "SCLEAR"
  | .sgetpix => "SGETPIX"
  | .sputpix => "SPUTPIX"
  | .sinfo => "SINFO"
  | .blitMasked => "BLIT_MASKED"
  | .blitStretch => "BLIT_STRETCH"
  | .smpcreate => "SMPCREATE"
  | .smpdestroy => "SMPDESTROY"
  | .smpwrite => "SMPWRITE"
  | .smpread => "SMPREAD"
  | .smpinfo => "SMPINFO"
  | .pinit => "PINIT"
  | .valloc => "VALLOC"
  | .vfree => "VFREE"
  | .vplaymode => "VPLAYMODE"
  | .vstart => "VSTART"
  | .vstop => "VSTOP"
  | .vsetpos => "VSETPOS"
  | .vsetfreq => "VSETFREQ"
  | .vsetvol => "VSETVOL"
  | .vsetpan => "VSETPAN"
  | .vsweepfreq => "VSWEEPFREQ"
  | .vrampvol => "VRAMPVOL"

/-- The value of a decimal digit. -/
def decDigit (c : Char) : Option Nat :=
  if '0' ≤ c ∧ c ≤ '9' then some (c.toNat - '0'.toNat) else none

/-- The value of a hexadecimal digit. -/
def hexDigit (c : Char) : Option Nat :=
  if '0' ≤ c ∧ c ≤ '9' then some (c.toNat - '0'.toNat)
  else if 'a' ≤ c ∧ c ≤ 'f' then some (c.toNat - 'a'.toNat + 10)
  else if 'A' ≤ c ∧ c ≤ 'F' then some (c.toNat - 'A'.toNat + 10)
  else none

/-- The number a list of digits stands for, after those already read. -/
def digits (base : Nat) (digit : Char → Option Nat) (acc : Nat) : List Char → Option Nat
  | [] => some acc
  | c :: rest =>
    match digit c with
    | some d => digits base digit (acc * base + d) rest
    | none => none

/-- A decimal or `0x` hexadecimal literal (R60); one that no 32-bit register can hold is an error (log 19). -/
def literal (l : List Char) : Option Word :=
  let n := match l with
    | [] => none
    | ['0', 'x'] => none
    | '0' :: 'x' :: rest => digits 16 hexDigit 0 rest
    | l => digits 10 decDigit 0 l
  match n with
  | some n => if n < 2 ^ 32 then some (BitVec.ofNat 32 n) else none
  | none => none

/-- Take the blanks off both ends. -/
def trim (l : List Char) : List Char :=
  ((l.dropWhile (· = ' ')).reverse.dropWhile (· = ' ')).reverse

/-- Cut a list of characters at its commas. -/
def splitCommas : List Char → List (List Char)
  | [] => [[]]
  | ',' :: rest => [] :: splitCommas rest
  | c :: rest =>
    match splitCommas rest with
    | [] => [[c]]
    | p :: ps => (c :: p) :: ps

/-- Every literal of a list, if each is one. -/
def literals : List (List Char) → Option (List Word)
  | [] => some []
  | p :: rest =>
    match literal (trim p), literals rest with
    | some w, some ws => some (w :: ws)
    | _, _ => none

/-- The operands of a statement: none, or a comma-separated list. -/
def operands (l : List Char) : Option (List Word) :=
  if trim l = [] then some [] else literals (splitCommas l)

/-- The statement a name and its operands make (R60, R61). -/
def statementOf (name : List Char) (ops : List Word) : Option Statement :=
  match Instr.all.find? (fun i => (mnemonic i).toList = name) with
  | some i => some (.command i ops)
  | none =>
    if name = "WR".toList then
      match ops with
      | [off, v] => some (.wr off.toNat v)
      | _ => none
    else if name = "RD".toList then
      match ops with
      | [off] => some (.rd off.toNat)
      | _ => none
    else if name = "SCOPY".toList then
      match ops with
      | [src, dst, w, h] => some (.scopy src dst w h)
      | _ => none
    else if name = "VRESTART".toList then
      match ops with
      | [v] => some (.vrestart v)
      | _ => none
    else if name = "VCENTER".toList then
      match ops with
      | [v] => some (.vcenter v)
      | _ => none
    else if name = "VPLAY".toList then
      match ops with
      | [v] => some (.vplay v)
      | _ => none
    else none

/-- One line (R60): a comment starts at `;`; a line with nothing else is no statement; else the line is a statement or an
assembly error (`none`). -/
def parseLine (line : List Char) : Option (List Statement) :=
  let l := trim (line.takeWhile (· ≠ ';'))
  if l = [] then some []
  else
    match operands (l.dropWhile (· ≠ ' ')) with
    | some ops =>
      match statementOf (l.takeWhile (· ≠ ' ')) ops with
      | some st => some [st]
      | none => none
    | none => none

/-- One line of text to its bus accesses; an assembly error emits nothing (R60). -/
def assembleLine (line : List Char) : Option (List BusAccess) :=
  match parseLine line with
  | some sts => assembleProgram sts
  | none => none

end Sys2Proof.Machine
end

