-- ==== Sys2Proof/Safety.lean ====
section
/-! DEFINITION. The terms claims use: the fault table (60_exceptions.md R99), the order of checks (40_general.md R65), runs
without a fault (10_state.md R19), and the invariant of the machine (10_state.md R22 to R24, R29 to R32, R36). -/

namespace Sys2Proof.Machine

/-- The pool commands that need the pool READY: VALLOC, VFREE and every voice control command (R82, R111). -/
def needsPool : Instr → Bool
  | .valloc | .vfree => true
  | .vplaymode | .vstart | .vstop | .vsetpos | .vsetfreq | .vsetvol | .vsetpan | .vsweepfreq | .vrampvol => true
  | _ => false

/-- The fault rows of R99 that name a command; ILLEGAL is raised by a word that is no command. -/
def faultsOf : Instr → List FaultCode
  | .nop => []
  | .screate => [.badArg]
  | .sdestroy => [.badHandle]
  | .sclear => [.badHandle, .badArg]
  | .sgetpix => [.badHandle, .badArg]
  | .sputpix => [.badHandle, .badArg]
  | .sinfo => [.badHandle]
  | .blitMasked => [.badHandle, .badArg]
  | .blitStretch => [.badHandle, .badArg, .zeroDim]
  | .smpcreate => [.badArg]
  | .smpdestroy => [.badHandle, .sampleBusy]
  | .smpwrite => [.badHandle, .badArg]
  | .smpread => [.badHandle, .badArg]
  | .smpinfo => [.badHandle, .badArg]
  | .pinit => [.badArg, .poolFailed, .badState]
  | .valloc => [.badHandle, .poolNotReady, .poolFailed]
  | .vfree | .vplaymode | .vstart | .vstop | .vsetpos | .vsetfreq | .vsweepfreq =>
    [.badVoice, .poolNotReady, .poolFailed]
  | .vsetvol | .vsetpan | .vrampvol => [.badArg, .badVoice, .poolNotReady, .poolFailed]

/-- The legal values of an operand class (R57), read off the state. -/
def operandLegal (s : State) (n : Nat) : OperandClass → Bool
  | .dim => decide (1 ≤ n ∧ n ≤ 65535)
  | .c16 => decide (n < 2 ^ 16)
  | .byte => decide (n ≤ 255)
  | .u32 => true
  | .surf => s.liveSurface n
  | .surf0 => decide (n = 0) || s.liveSurface n
  | .smp => s.liveSample n
  | .smp0 => decide (n = 0) || s.liveSample n
  | .voice => s.validVoice n
  | .bits => decide (n = 8 ∨ n = 16)
  | .channels => decide (n = 1 ∨ n = 2)
  | .field => decide (n ≤ 6)
  | .cap => decide (n ≤ s.cfg.maxVoices)

/-- The fault a failed check of an operand class raises (R57). -/
def operandFault : OperandClass → FaultCode
  | .dim | .c16 | .byte | .u32 | .bits | .channels | .field | .cap => .badArg
  | .surf | .surf0 | .smp | .smp0 => .badHandle
  | .voice => .badVoice

/-- The operand checks of a list of slots, the first of them ARG[k], that raise one kind of fault, in ARG order (R65). -/
def slotChecks (s : State) (c : FaultCode) : Nat → List OperandClass → List Check
  | _, [] => []
  | k, cls :: rest =>
    if operandFault cls = c then (operandLegal s (s.argN (Fin.ofNat 10 k)) cls, c) :: slotChecks s c (k + 1) rest
    else slotChecks s c (k + 1) rest

/-- The pool-state checks of a command (R65, step 2). -/
def poolStateChecks (s : State) : Instr → List Check
  | .pinit => [(decide (s.poolState ≠ .ready), .badState), (decide (s.poolState ≠ .failed), .poolFailed)]
  | i => if needsPool i then
      [(decide (s.poolState ≠ .uninit), .poolNotReady), (decide (s.poolState ≠ .failed), .poolFailed)]
    else []

/-- The command-specific checks (R65, step 6): data offsets, ZERO_DIM, SAMPLE_BUSY. -/
def specificChecks (s : State) : Instr → List Check
  | .smpwrite | .smpread => [(decide (s.argN 1 < s.sampleSize (s.argN 0)), .badArg)]
  | .blitStretch => [(decide (s.argN 8 ≠ 0 ∧ s.argN 9 ≠ 0), .zeroDim)]
  | .smpdestroy => [(decide (s.argN 0 = 0) || !s.sampleBusy (s.argN 0), .sampleBusy)]
  | _ => []

/-- Every check of a command in the order of R65, made from the operand table of R56 and the classes of R57. -/
def orderedChecks (s : State) (i : Instr) : List Check :=
  poolStateChecks s i ++ slotChecks s .badVoice 0 (slots i) ++ slotChecks s .badHandle 0 (slots i) ++
    slotChecks s .badArg 0 (slots i) ++ specificChecks s i

/-- No command has faulted since reset: "FAULT = 0 at the end of a run means no command of the run faulted" (R19). -/
abbrev State.clean (s : State) : Prop := s.fault = none

/-- A live surface as R29 and R30 say: both dimensions at least 1, a canonical buffer of w*h bytes. -/
abbrev Surface.wf (S : Surface) : Prop :=
  1 ≤ S.w.toNat ∧ 1 ≤ S.h.toNat ∧ Memory.wf S.pix ∧ Memory.within (S.w.toNat * S.h.toNat) S.pix

/-- A live sample as R31, R32 and R81 say: a canonical buffer of size bytes, and the metadata of its creation. -/
abbrev Sample.wf (M : Sample) : Prop :=
  Memory.wf M.data ∧ Memory.within M.size M.data ∧ M.loopStart = 0 ∧ M.loopEnd = M.len ∧ M.priority = 128

/-- Every memory of the state is in its canonical form: both tables rise, and every buffer is canonical. -/
abbrev State.memoryWf (s : State) : Prop :=
  Table.rising s.surfaces ∧ Table.rising s.samples ∧
    (∀ e ∈ s.surfaces, Memory.wf e.2.pix) ∧ (∀ e ∈ s.samples, Memory.wf e.2.data)

/-- The surface table (R29, R30): handles 1..`MAX_SURFACES`, every entry well-formed. -/
abbrev State.surfacesOk (s : State) : Prop :=
  Table.rising s.surfaces ∧ ∀ e ∈ s.surfaces, 1 ≤ e.1 ∧ e.1 ≤ s.cfg.maxSurfaces ∧ Surface.wf e.2

/-- The sample table (R31, R32): handles 1..`MAX_SAMPLES`, every entry well-formed. -/
abbrev State.samplesOk (s : State) : Prop :=
  Table.rising s.samples ∧ ∀ e ∈ s.samples, 1 ≤ e.1 ∧ e.1 ≤ s.cfg.maxSamples ∧ Sample.wf e.2

/-- The pool registers (R22, R23, R24): CAPACITY at most `MAX_VOICES`; capacity and masks 0 unless READY; no bit of AVAIL_MASK
at CAPACITY or above; FREE_MASK within AVAIL_MASK. -/
abbrev State.poolOk (s : State) : Prop :=
  s.capacity.toNat ≤ s.cfg.maxVoices ∧
    (s.poolState ≠ .ready → s.capacity = 0 ∧ s.freeMask = 0 ∧ s.availMask = 0) ∧
    (∀ v : Fin 32, s.availMask.getLsbD v = true → v.val < s.capacity.toNat) ∧
    (∀ v : Fin 32, s.freeMask.getLsbD v = true → s.availMask.getLsbD v = true)

/-- A sample handle names a live sample with a data buffer (R36). -/
def State.playable (s : State) (m : Nat) : Bool :=
  match s.sample? m with
  | some M => decide (M.size ≠ 0)
  | none => false

/-- The voices (R26, R36): a playing voice is an allocated slot the backend reported, and its sample is live and not empty. -/
abbrev State.voicesOk (s : State) : Prop :=
  ∀ v : Fin 32, (s.voice v).playing = true →
    s.availMask.getLsbD v = true ∧ s.isFree v = false ∧ s.playable (s.voice v).sample.toNat = true

/-- The fault registers (R19): a fault in STATUS has been latched, and FAULT_CMD is 0 while FAULT is. -/
abbrev State.faultOk (s : State) : Prop :=
  (s.fault = none → s.faultCmd = 0) ∧ (s.status.isFault = true → s.fault ≠ none)

/-- The invariant of the machine. -/
abbrev State.Inv (s : State) : Prop :=
  s.surfacesOk ∧ s.samplesOk ∧ s.poolOk ∧ s.voicesOk ∧ s.faultOk

/-! ### Words for the statements -/

/-- The command, run in the state, does nothing but raise the fault (R64). -/
abbrev Raises (i : Instr) (s : State) (c : FaultCode) : Prop := exec i s = .next (s.raiseFault c)

/-- What every command that takes a voice id does before any other check (R82). -/
abbrev VoiceGuarded (i : Instr) (s : State) : Prop :=
  (s.poolState = .uninit → Raises i s .poolNotReady) ∧
    (s.poolState = .failed → Raises i s .poolFailed) ∧
    (s.poolState = .ready → s.capacity.toNat ≤ s.argN 0 ∨ s.availMask.getLsbD (s.argN 0) = false → Raises i s .badVoice)

/-- The checks of R82 pass, and `v` is the slot that ARG0 names. -/
abbrev VoiceNamed (s : State) (v : Fin 32) : Prop :=
  s.poolState = .ready ∧ v.val = s.argN 0 ∧ v.val < s.capacity.toNat ∧ s.availMask.getLsbD v.val = true

/-- Byte `a` of the buffer of a live surface, whether or not it is a pixel. -/
def State.surfaceByte (s : State) (h a : Nat) : Byte :=
  match s.surface? h with
  | some S => Memory.read S.pix a
  | none => 0

/-- The offsets of a rectangle in row-major order (R73): y in the outer loop, x in the inner. -/
def rowMajor (w h : Nat) : List (Nat × Nat) :=
  (List.range h).flatMap fun y => (List.range w).map fun x => (x, y)

/-- The operands of BLIT_MASKED pass their checks (R74). -/
abbrev MaskedLegal (s : State) : Prop :=
  s.liveSurface (s.argN 0) = true ∧ s.liveSurface (s.argN 1) = true ∧
    ∀ k : Fin 10, 2 ≤ k.val → k.val ≤ 7 → s.argN k < 2 ^ 16

/-- The operands of BLIT_STRETCH pass their checks (R75). -/
abbrev StretchLegal (s : State) : Prop :=
  s.liveSurface (s.argN 0) = true ∧ s.liveSurface (s.argN 1) = true ∧
    (∀ k : Fin 10, 2 ≤ k.val → s.argN k < 2 ^ 16) ∧ s.argN 8 ≠ 0 ∧ s.argN 9 ≠ 0

/-- `t` is `s` but for the pixels of surface `h`: every register, the samples, the voices and the log are as before, every
other surface is as before, and surface `h` keeps its dimensions (R30). -/
abbrev PixelsOnly (s t : State) (h : Nat) : Prop :=
  t = { s with surfaces := t.surfaces, status := .ok, result := 0 } ∧
    (∀ g, g ≠ h → t.surface? g = s.surface? g) ∧
    t.width h = s.width h ∧ t.height h = s.height h ∧ t.liveSurface h = s.liveSurface h

end Sys2Proof.Machine
end

