-- ==== Sys2Proof/Certificates/Slice0/Obligations.lean ====
section
/-! DEFINITION. The statements for the provers, from the numbered rules of spec/. -/

open Sys2Proof Sys2Proof.Machine

/-! ### Command words (30_encoding.md) -/

/-- R55: the 26 rows, each matched by CMD = zext_32(op) and by no other word. -/
def Obligations.OpcodeMapIsTheTable : Prop :=
  ∀ (w : Word) (i : Instr), decode w = .ok i ↔ (i, w) ∈
    ([(.nop, 0x00000000), (.screate, 0x00000010), (.sdestroy, 0x00000011), (.sclear, 0x00000012),
      (.sgetpix, 0x00000013), (.sputpix, 0x00000014), (.sinfo, 0x00000015), (.blitMasked, 0x00000020),
      (.blitStretch, 0x00000021), (.smpcreate, 0x00000030), (.smpdestroy, 0x00000031), (.smpwrite, 0x00000032),
      (.smpread, 0x00000033), (.smpinfo, 0x00000034), (.pinit, 0x00000040), (.valloc, 0x00000041),
      (.vfree, 0x00000042), (.vplaymode, 0x00000050), (.vstart, 0x00000051), (.vstop, 0x00000052),
      (.vsetpos, 0x00000053), (.vsetfreq, 0x00000054), (.vsetvol, 0x00000055), (.vsetpan, 0x00000056),
      (.vsweepfreq, 0x00000057), (.vrampvol, 0x00000058)] : List (Instr × Word))

/-- R54, R55, R59: the decoder and the encoder agree, in both directions. -/
def Obligations.DecodeAndEncodeAgree : Prop :=
  (∀ i : Instr, decode (encode i) = .ok i) ∧ (∀ (w : Word) (i : Instr), decode w = .ok i → w = encode i)

/-- R58: every word with CMD[31:8] ≠ 0 or with an op of the reserved ranges raises ILLEGAL; every other word selects a
command, which runs. -/
def Obligations.EveryOtherWordIsIllegal : Prop :=
  ∀ (w : Word) (s : State),
    let op := w.toNat % 256
    let reserved :=
      w.toNat / 256 ≠ 0 ∨ (0x01 ≤ op ∧ op ≤ 0x0F) ∨ (0x16 ≤ op ∧ op ≤ 0x1F) ∨ (0x22 ≤ op ∧ op ≤ 0x2F) ∨
        (0x35 ≤ op ∧ op ≤ 0x3F) ∨ (0x43 ≤ op ∧ op ≤ 0x4F) ∨ (0x59 ≤ op ∧ op ≤ 0xFF)
    (reserved → runCommandWord w s = .next ({ s with cmd := w }.raiseFault .illegal)) ∧
      (¬reserved → ∃ i, decode w = .ok i ∧ runCommandWord w s = exec i { s with cmd := w }) ∧
      (w = 0 → runCommandWord w s = .next { s with cmd := 0, status := .ok, result := 0 })

/-- Words written out from R54 and R55, one for each family, and words of vectors E3 and E4. -/
def Obligations.SampleWordsDecode : Prop :=
  decode 0x00000000 = .ok .nop ∧ decode 0x00000010 = .ok .screate ∧ decode 0x00000021 = .ok .blitStretch ∧
    decode 0x00000034 = .ok .smpinfo ∧ decode 0x00000041 = .ok .valloc ∧ decode 0x00000058 = .ok .vrampvol ∧
    decode 0x00000100 = .error .reservedBits ∧ decode 0x00000016 = .error .unassignedOpcode

/-! ### The step and the host interface (10_state.md, 20_memory.md, 40_general.md, 70_reset_and_hazards.md) -/

/-- R17, R63: a 32-bit write to offset 0 puts the word in CMD and runs the command it decodes to. The event is taken off the
pending list (the model's own, log 1), and nothing else is done around `exec`. -/
def Obligations.StepRunsDecodedCommand : Prop :=
  ∀ (s : State) (w : Word) (rest : List Event), s.pending = .bus (.write 0x000 4 w) :: rest →
    (∀ i, decode w = .ok i → step s = exec i { s with pending := rest, cmd := w }) ∧
      (∀ e, decode w = .error e → step s = .next ({ s with pending := rest, cmd := w }.raiseFault .illegal))

/-- R39: the one kind of access the interface admits and what it does; every other access is refused. -/
def Obligations.BusAccessRule : Prop :=
  ∀ (s : State) (off size : Nat) (v : Word) (rest : List Event),
    let admitted := fun r => size = 4 ∧ off % 4 = 0 ∧ off < 0x1000 ∧ regAt s.cfg off = some r
    (s.pending = .bus (.read off size) :: rest → ∀ r, admitted r →
        step s = .next { s with pending := rest, reads := s.reads ++ [s.readReg r] }) ∧
      (s.pending = .bus (.write off size v) :: rest → ∀ r, admitted r →
        (r = .cmd → step s = runCommandWord v { s with pending := rest }) ∧
        (∀ k, r = .arg k → step s = .next { s with pending := rest, args := s.args.set k v }) ∧
        (r ≠ .cmd → (∀ k, r ≠ .arg k) → step s = .next { s with pending := rest })) ∧
      (s.pending = .bus (.read off size) :: rest ∨ s.pending = .bus (.write off size v) :: rest →
        (∀ r, ¬admitted r) → ∃ why, step s = .refused why)

/-- R15, R16: the offset of every register, the reserved offsets, what a read of each interface and pool register returns, the
13 status codes (there is no other), and that a fault is a code with bit 7 set. -/
def Obligations.RegisterMap : Prop :=
  (Status.ok.code = 0x00 ∧ Status.noneFree.code = 0x01 ∧ Status.allocFail.code = 0x02 ∧ Status.initFail.code = 0x03 ∧
    FaultCode.illegal.code = 0x81 ∧ FaultCode.badHandle.code = 0x82 ∧ FaultCode.badArg.code = 0x83 ∧
    FaultCode.zeroDim.code = 0x84 ∧ FaultCode.badVoice.code = 0x85 ∧ FaultCode.poolNotReady.code = 0x86 ∧
    FaultCode.poolFailed.code = 0x87 ∧ FaultCode.badState.code = 0x88 ∧ FaultCode.sampleBusy.code = 0x89 ∧
    (∀ c : FaultCode, (Status.fault c).code = c.code) ∧
    (∀ st : Status, st.code ∈ ([0x00, 0x01, 0x02, 0x03, 0x81, 0x82, 0x83, 0x84, 0x85, 0x86, 0x87, 0x88, 0x89] : List Byte)) ∧
    ∀ st : Status, st.isFault = st.code.getLsbD 7) ∧
  ∀ (c : Config) (s : State),
    (regAt c 0x000 = some .cmd ∧ regAt c 0x004 = some .status ∧ regAt c 0x008 = some .result ∧
      regAt c 0x00C = some .fault ∧ regAt c 0x010 = some .faultCmd ∧
      (∀ k : Fin 10, regAt c (0x020 + 4 * k.val) = some (.arg k)) ∧
      regAt c 0x060 = some .poolState ∧ regAt c 0x064 = some .capacity ∧ regAt c 0x068 = some .freeMask ∧
      regAt c 0x06C = some .availMask) ∧
      (∀ off, off % 4 = 0 →
        (0x014 ≤ off ∧ off ≤ 0x01C) ∨ (0x048 ≤ off ∧ off ≤ 0x05C) ∨ (0x070 ≤ off ∧ off ≤ 0x0FC) ∨
          0x100 + 0x20 * c.maxVoices ≤ off → regAt c off = none) ∧
      (s.readReg .cmd = s.cmd ∧ (s.readReg .status).toNat = s.status.code.toNat ∧ s.readReg .result = s.result ∧
        (s.readReg .fault).toNat = (s.fault.map fun f => f.code.toNat).getD 0 ∧ s.readReg .faultCmd = s.faultCmd ∧
        (∀ k, s.readReg (.arg k) = s.args[k]) ∧
        (s.readReg .poolState).toNat =
          (match s.poolState with
            | .uninit => 0
            | .ready => 1
            | .failed => 2) ∧
        (s.readReg .capacity).toNat = s.capacity.toNat ∧ s.readReg .freeMask = s.freeMask ∧
        s.readReg .availMask = s.availMask)

/-- R27: the VOICE[i] block. -/
def Obligations.VoiceBlock : Prop :=
  (∀ (s : State) (i : Fin 32), i.val < s.cfg.maxVoices →
    (regAt s.cfg (0x100 + 0x20 * i.val) = some (.voice i .vstate) ∧
      regAt s.cfg (0x100 + 0x20 * i.val + 0x04) = some (.voice i .vsample) ∧
      regAt s.cfg (0x100 + 0x20 * i.val + 0x08) = some (.voice i .vpos) ∧
      regAt s.cfg (0x100 + 0x20 * i.val + 0x0C) = some (.voice i .vrate) ∧
      regAt s.cfg (0x100 + 0x20 * i.val + 0x10) = some (.voice i .vvol) ∧
      regAt s.cfg (0x100 + 0x20 * i.val + 0x14) = some (.voice i .vpan) ∧
      regAt s.cfg (0x100 + 0x20 * i.val + 0x18) = none ∧ regAt s.cfg (0x100 + 0x20 * i.val + 0x1C) = none) ∧
    ((s.readReg (.voice i .vstate)).getLsbD 0 = s.voices[i].playing ∧
      (s.readReg (.voice i .vstate)).getLsbD 1 = s.voices[i].loop ∧
      (s.readReg (.voice i .vstate)).getLsbD 2 = s.freeMask.getLsbD i.val ∧
      (s.readReg (.voice i .vstate)).toNat < 8 ∧
      s.readReg (.voice i .vsample) = s.voices[i].sample ∧ s.readReg (.voice i .vpos) = s.voices[i].position ∧
      s.readReg (.voice i .vrate) = s.voices[i].rate ∧
      (s.readReg (.voice i .vvol)).toNat = s.voices[i].vol.toNat ∧
      (s.readReg (.voice i .vpan)).toNat = s.voices[i].pan.toNat) ∧
    ∀ (r : VoiceReg) (x : Word) (rest : List Event),
      s.pending = .bus (.write (regOffset (.voice i r)) 4 x) :: rest → step s = .next { s with pending := rest }) ∧
    (∀ (j : Instr) (s t : State) (i : Fin 32), exec j s = .next t → j ≠ .pinit → s.capacity.toNat ≤ i.val →
      t.voices[i] = s.voices[i])

/-- R20: the ARG registers. The host writes and reads each alone; commands never write them and ignore those they do not use. -/
def Obligations.ArgumentRegisters : Prop :=
  (∀ (s : State) (k : Fin 10) (v : Word) (rest : List Event),
    (s.pending = .bus (.write (0x020 + 4 * k.val) 4 v) :: rest →
      step s = .next { s with pending := rest, args := s.args.set k v }) ∧
    (s.pending = .bus (.read (0x020 + 4 * k.val) 4) :: rest →
      step s = .next { s with pending := rest, reads := s.reads ++ [s.args[k]] }) ∧
    (s.args.set k v)[k] = v ∧ ∀ j : Fin 10, j ≠ k → (s.args.set k v)[j] = s.args[j]) ∧
    (∀ (i : Instr) (s t : State), exec i s = .next t → t.args = s.args) ∧
    (∀ (i : Instr) (s t : State) (k : Fin 10) (v : Word), (slots i).length ≤ k.val → exec i s = .next t →
      exec i { s with args := s.args.set k v } = .next { t with args := s.args.set k v })

/-- R35: the reset value of every piece of state. The model's own fields (log 2, 3, 5, 15) are not in it. -/
def Obligations.ResetValues : Prop :=
  State.reset = State.resetWith Config.machine ∧ ∀ c : Config,
    let s := State.resetWith c
    s.cmd = 0 ∧ s.status = .ok ∧ s.result = 0 ∧ s.fault = none ∧ s.faultCmd = 0 ∧ (∀ k : Fin 10, s.args[k] = 0) ∧
    s.poolState = .uninit ∧ s.capacity = 0 ∧ s.freeMask = 0 ∧ s.availMask = 0 ∧
    (∀ v : Fin 32, s.voices[v] =
      { playing := false, loop := false, sample := 0, position := 0, rate := 0, vol := 0, pan := 128 }) ∧
    (∀ h, s.liveSurface h = false) ∧ (∀ m, s.liveSample m = false) ∧ s.log = []

/-- R112: the reset event. That the fields outside the block stay is the model's choice (log 14). -/
def Obligations.ResetEvent : Prop :=
  ∀ (s : State) (rest : List Event), s.pending = .reset :: rest →
    step s = .next
      { State.reset with
        cfg := s.cfg, pending := rest, answers := s.answers, asked := s.asked, reads := s.reads, seen := s.seen }

/-- R53: the display reader sees the pixels the last complete command left and writes nothing. -/
def Obligations.DisplayReaderSeesPixels : Prop :=
  ∀ (s : State) (h x y : Nat) (rest : List Event), s.pending = .display h x y :: rest →
    s.liveSurface h = true → x < s.width h → y < s.height h →
    step s = .next { s with pending := rest, seen := s.seen ++ [s.pixel h x y] }

/-- R124 "the block is always ready for another access": with nothing pending it waits, unchanged (log 1), and a command always
ends in a next state that leaves the events still to come, the parameters and what was observed alone. -/
def Obligations.CommandsAlwaysComplete : Prop :=
  (∀ s : State, s.pending = [] → step s = .next s) ∧
    ∀ (i : Instr) (s : State), ∃ t, exec i s = .next t ∧ t.pending = s.pending ∧ t.cfg = s.cfg ∧ t.reads = s.reads ∧
      t.seen = s.seen ∧ t.cmd = s.cmd

/-! ### Assembly (30_encoding.md) -/

/-- R60: a command statement with the operands of R56, assembled and run one access a step, runs its command with those operands
in the ARG registers; with another operand count nothing is emitted. -/
def Obligations.AssembledCommandRuns : Prop :=
  ∀ (i : Instr) (ops : List Word),
    (ops.length ≠ (slots i).length → assemble (.command i ops) = none) ∧
    (ops.length = (slots i).length → ∃ accesses, assemble (.command i ops) = some accesses ∧
      accesses.length = ops.length + 1 ∧
      ∀ s : State, ∃ args : Vector Word 10,
        (∀ (k : Fin 10) (h : k.val < ops.length), args[k] = ops[k.val]) ∧
        (∀ k : Fin 10, ops.length ≤ k.val → args[k] = s.args[k]) ∧
        core.run (ops.length + 1) (s.withAccesses accesses) = exec i { s with args := args, cmd := encode i })

/-- R61: the four pseudo-instructions. -/
def Obligations.PseudoInstructionsExpand : Prop :=
  (∀ src dst w h : Word,
    assemble (.scopy src dst w h) = assemble (.command .blitMasked [src, dst, 0, 0, 0, 0, w, h])) ∧
    (∀ v : Word, assemble (.vrestart v) = assemble (.command .vsetpos [v, 0])) ∧
    (∀ v : Word, assemble (.vcenter v) = assemble (.command .vsetpan [v, 128])) ∧
    (∀ v : Word, assemble (.vplay v) = assemble (.command .vstart [v]))

/-! ### Faults (10_state.md, 40_general.md, 60_exceptions.md) -/

/-- R64: what raising a fault does, and that a command that ends in a fault does exactly that. -/
def Obligations.FaultDoesNothingElse : Prop :=
  (∀ (s : State) (c : FaultCode),
    (s.fault = none → s.raiseFault c = { s with status := .fault c, fault := some c, faultCmd := s.cmd }) ∧
      (s.fault ≠ none → s.raiseFault c = { s with status := .fault c })) ∧
    (∀ (i : Instr) (s t : State) (c : FaultCode), exec i s = .next t → t.status = .fault c → t = s.raiseFault c)

/-- R19: FAULT and FAULT_CMD latch the first fault; no event but reset clears them. -/
def Obligations.FirstFaultLatches : Prop :=
  (∀ (w : Word) (s t : State), runCommandWord w s = .next t →
    (s.fault = none → ∀ c, t.status = .fault c → t.fault = some c ∧ t.faultCmd = w) ∧
      (s.fault = none → t.status.isFault = false → t.fault = none ∧ t.faultCmd = s.faultCmd)) ∧
    (∀ s t : State, step s = .next t → s.pending.head? ≠ some .reset → s.fault ≠ none →
      t.fault = s.fault ∧ t.faultCmd = s.faultCmd) ∧
    (∀ s t : State, step s = .next t → s.pending.head? = some .reset → t.fault = none ∧ t.faultCmd = 0) ∧
    (∀ s t : State, step s = .next t → t.clean → s.clean ∨ s.pending.head? = some .reset) ∧
    (∀ (w : Word) (s t : State), runCommandWord w s = .next t → t.clean → t.status.isFault = false)

/-- R99: no command raises a fault that is not listed on its row. -/
def Obligations.FaultsAreListed : Prop :=
  ∀ (i : Instr) (s t : State) (c : FaultCode), exec i s = .next t → t.status = .fault c → c ∈ faultsOf i

/-- R65: which fault a command word reports when several checks fail, the checks being made from R56 and R57 and put in the
order of R65; a command all of whose checks pass ends without a fault. -/
def Obligations.FaultPrecedence : Prop :=
  ∀ (w : Word) (s : State),
    (∀ e, decode w = .error e → runCommandWord w s = .next ({ s with cmd := w }.raiseFault .illegal)) ∧
      (∀ i c, decode w = .ok i → firstFault (orderedChecks s i) = some c →
        runCommandWord w s = .next ({ s with cmd := w }.raiseFault c)) ∧
      (∀ i, decode w = .ok i → firstFault (orderedChecks s i) = none →
        ∃ t, runCommandWord w s = .next t ∧ t.status.isFault = false)

/-- R18: RESULT on each outcome, and that the host cannot write STATUS or RESULT. -/
def Obligations.ResultOnEachOutcome : Prop :=
  (∀ (i : Instr) (s t : State), exec i s = .next t →
    (t.status.isFault = true → t.result = s.result) ∧ (t.status = .noneFree → t.result = 0xFFFFFFFF) ∧
      (t.status = .allocFail ∨ t.status = .initFail → t.result = 0) ∧
      (t.status = .ok → i ∉ [Instr.screate, .sgetpix, .sinfo, .smpcreate, .smpread, .smpinfo, .valloc] →
        t.result = 0)) ∧
    (∀ (s : State) (off : Nat) (v : Word) (rest : List Event), off = 0x004 ∨ off = 0x008 →
      s.pending = .bus (.write off 4 v) :: rest → step s = .next { s with pending := rest })

/-- R111: in a FAILED pool every pool command and PINIT raise POOL_FAILED; the other commands do not look at the pool's state. -/
def Obligations.FailedPoolRefuses : Prop :=
  (∀ (i : Instr) (s : State), s.poolState = .failed → needsPool i = true ∨ i = .pinit → Raises i s .poolFailed) ∧
    (∀ (s t : State), step s = .next t → s.poolState = .failed → s.pending.head? ≠ some .reset →
      t.poolState = .failed) ∧
    (∀ (i : Instr) (s t : State) (p : PoolState), needsPool i = false → i ≠ .pinit → exec i s = .next t →
      exec i { s with poolState := p } = .next { t with poolState := p })

/-! ### Rules about every command -/

/-- R21: what POOL_STATE holds and the only three things that change it. -/
def Obligations.PoolStateTransitions : Prop :=
  (PoolState.uninit.code = 0 ∧ PoolState.ready.code = 1 ∧ PoolState.failed.code = 2 ∧
    ∀ p : PoolState, p.code ≠ 3) ∧
    ∀ s t : State, step s = .next t → t.poolState ≠ s.poolState →
      (s.pending.head? = some .reset ∧ t.poolState = .uninit) ∨
        (s.pending.head? = some (.bus (.write 0x000 4 (encode .pinit))) ∧ s.poolState = .uninit ∧
          ((t.poolState = .ready ∧ t.status = .ok) ∨ (t.poolState = .failed ∧ t.status = .initFail)))

/-- R22, R23, R24: which commands write CAPACITY, AVAIL_MASK and FREE_MASK. -/
def Obligations.MaskWriters : Prop :=
  ∀ (i : Instr) (s t : State), exec i s = .next t →
    (i ≠ .pinit → t.availMask = s.availMask ∧ t.capacity = s.capacity) ∧
      (i ≠ .pinit → i ≠ .valloc → i ≠ .vfree → t.freeMask = s.freeMask)

/-- R33, R37: BACKEND_LOG only grows, and only PINIT, VFREE and the voice control commands append to it. -/
def Obligations.LogOnlyGrows : Prop :=
  ∀ (i : Instr) (s t : State), exec i s = .next t →
    (∃ new, t.log = s.log ++ new) ∧
      (needsPool i = false ∨ i = .valloc → i ≠ .pinit → t.log = s.log)

/-- R30, R32: while an entry is valid no command changes a surface's dimensions or a sample's metadata; a command changes the
pixels of its destination surface only, and the data of a sample only by SMPWRITE of it. -/
def Obligations.LiveEntriesKeepTheirShape : Prop :=
  ∀ (i : Instr) (s t : State), exec i s = .next t →
    (∀ h S T, s.surface? h = some S → t.surface? h = some T → T.w = S.w ∧ T.h = S.h) ∧
      (∀ m M N, s.sample? m = some M → t.sample? m = some N → N = { M with data := N.data }) ∧
      (∀ h, (i ≠ .screate → i ≠ .sdestroy → i ≠ .sclear → i ≠ .sputpix → i ≠ .blitMasked → i ≠ .blitStretch →
        t.surface? h = s.surface? h) ∧
        (i = .sdestroy ∨ i = .sclear ∨ i = .sputpix → h ≠ s.argN 0 → t.surface? h = s.surface? h) ∧
        (i = .blitMasked ∨ i = .blitStretch → h ≠ s.argN 1 → t.surface? h = s.surface? h) ∧
        (i = .screate → s.liveSurface h = true → t.surface? h = s.surface? h)) ∧
      (∀ m, (i ≠ .smpcreate → i ≠ .smpdestroy → i ≠ .smpwrite → t.sample? m = s.sample? m) ∧
        (i = .smpdestroy ∨ i = .smpwrite → m ≠ s.argN 0 → t.sample? m = s.sample? m) ∧
        (i = .smpcreate → s.liveSample m = true → t.sample? m = s.sample? m))

/-- The invariant holds after reset, whatever the parameters. R7: the ranges of the parameters; that `State.reset` has the
parameters with a default at their defaults is the model's choice (log 5). -/
def Obligations.ResetMeetsTheInvariant : Prop :=
  (∀ c : Config, (State.resetWith c).Inv) ∧ State.reset.Inv ∧
    (∀ c : Config, 1 ≤ c.maxVoices ∧ c.maxVoices ≤ 32 ∧ 1 ≤ c.maxSurfaces ∧ 1 ≤ c.maxSamples ∧ c.blkBase % 4096 = 0) ∧
    State.reset.cfg.maxVoices = 32 ∧ State.reset.cfg.stereoByteLen = .legacy

/-- R22 to R24, R29 to R32, R36: every step keeps the invariant. -/
def Obligations.EveryStepKeepsTheInvariant : Prop :=
  ∀ s t : State, s.Inv → step s = .next t → t.Inv

/-- Every step keeps every memory in its canonical form. -/
def Obligations.EveryStepKeepsMemoryCanonical : Prop :=
  ∀ s t : State, s.memoryWf → step s = .next t → t.memoryWf

/-- R119: the playing flag is bookkeeping: only VSTOP, VFREE and reset end it. -/
def Obligations.PlayingLastsUntilStopped : Prop :=
  ∀ (i : Instr) (s t : State) (v : Fin 32), s.Inv → exec i s = .next t → s.voices[v].playing = true →
    t.voices[v].playing = true ∨ (i = .vstop ∨ i = .vfree) ∧ s.argN 0 = v.val

/-! ### General and surface commands (40_general.md, 41_surface.md) -/

/-- R66. -/
def Obligations.NopCompletes : Prop :=
  encode .nop = 0 ∧ ∀ s : State, exec .nop s = .next { s with status := .ok, result := 0 }

/-- R67. `allocSurface` is the oracle's answer: every handle of R45 it may give, and its failure, are taken over from
`nextAnswer`. How the model keeps answers (the fields left open here) is its own, log 3; what it makes of an answer that names
another handle is too, log 4, and not stated. -/
def Obligations.ScreateMakesASurface : Prop :=
  encode .screate = 0x10 ∧ ∀ s : State,
    let legal := (1 ≤ s.argN 0 ∧ s.argN 0 ≤ 65535) ∧ (1 ≤ s.argN 1 ∧ s.argN 1 ≤ 65535)
    (¬legal → Raises .screate s .badArg) ∧
    (legal → s.allocSurface = none → ∃ t : State, exec .screate s = .next t ∧
      t = { s with answers := t.answers, asked := t.asked, status := .allocFail, result := 0 }) ∧
    (legal → ∀ r, s.allocSurface = some r → ∃ (t : State) (S : Surface),
      exec .screate s = .next t ∧
      t = { s with answers := t.answers, asked := t.asked, surfaces := t.surfaces, status := .ok,
                   result := BitVec.ofNat 32 r } ∧
      1 ≤ r ∧ r ≤ s.cfg.maxSurfaces ∧ s.liveSurface r = false ∧
      t.surface? r = some S ∧ S.w.toNat = s.argN 0 ∧ S.h.toNat = s.argN 1 ∧
      (∀ a, a < s.argN 0 * s.argN 1 → Memory.read S.pix a =
        ((s.nextAnswer.contents.find? (fun c => c.1 = a)).map Prod.snd).getD 0) ∧
      ∀ h, h ≠ r → t.surface? h = s.surface? h) ∧
    (∀ r, 1 ≤ r → r ≤ s.cfg.maxSurfaces → s.liveSurface r = false → s.nextAnswer.handle = some r →
      s.allocSurface = some r) ∧
    (s.nextAnswer.handle = none → s.allocSurface = none) ∧
    ((∀ h, 1 ≤ h → h ≤ s.cfg.maxSurfaces → s.liveSurface h = true) → s.allocSurface = none)

/-- R68. -/
def Obligations.SdestroyEndsASurface : Prop :=
  encode .sdestroy = 0x11 ∧ ∀ s : State,
    (s.argN 0 ≠ 0 → s.liveSurface (s.argN 0) = false → Raises .sdestroy s .badHandle) ∧
    (s.argN 0 = 0 → exec .sdestroy s = .next { s with status := .ok, result := 0 }) ∧
    (s.liveSurface (s.argN 0) = true → ∃ t : State, exec .sdestroy s = .next t ∧
      t = { s with surfaces := t.surfaces, status := .ok, result := 0 } ∧
      t.liveSurface (s.argN 0) = false ∧ ∀ h, h ≠ s.argN 0 → t.surface? h = s.surface? h)

/-- R69. -/
def Obligations.SclearFillsASurface : Prop :=
  encode .sclear = 0x12 ∧ ∀ s : State,
    (s.liveSurface (s.argN 0) = false → Raises .sclear s .badHandle) ∧
    (s.liveSurface (s.argN 0) = true → 255 < s.argN 1 → Raises .sclear s .badArg) ∧
    (s.liveSurface (s.argN 0) = true → s.argN 1 ≤ 255 → ∃ t : State, exec .sclear s = .next t ∧
      PixelsOnly s t (s.argN 0) ∧
      (∀ x y, x < s.width (s.argN 0) → y < s.height (s.argN 0) → (t.pixel (s.argN 0) x y).toNat = s.argN 1) ∧
      ∀ a, s.width (s.argN 0) * s.height (s.argN 0) ≤ a →
        t.surfaceByte (s.argN 0) a = s.surfaceByte (s.argN 0) a)

/-- R70. -/
def Obligations.SgetpixReadsAPixel : Prop :=
  encode .sgetpix = 0x13 ∧ ∀ s : State,
    (s.liveSurface (s.argN 0) = false → Raises .sgetpix s .badHandle) ∧
    (s.liveSurface (s.argN 0) = true → 2 ^ 16 ≤ s.argN 1 ∨ 2 ^ 16 ≤ s.argN 2 → Raises .sgetpix s .badArg) ∧
    (s.liveSurface (s.argN 0) = true → s.argN 1 < 2 ^ 16 → s.argN 2 < 2 ^ 16 → ∃ r : Word,
      exec .sgetpix s = .next { s with status := .ok, result := r } ∧
      r.toNat = (s.pixel (s.argN 0) (s.argN 1 % s.width (s.argN 0)) (s.argN 2 % s.height (s.argN 0))).toNat)

/-- R71. -/
def Obligations.SputpixWritesAPixel : Prop :=
  encode .sputpix = 0x14 ∧ ∀ s : State,
    (s.liveSurface (s.argN 0) = false → Raises .sputpix s .badHandle) ∧
    (s.liveSurface (s.argN 0) = true → 2 ^ 16 ≤ s.argN 1 ∨ 2 ^ 16 ≤ s.argN 2 ∨ 255 < s.argN 3 →
      Raises .sputpix s .badArg) ∧
    (s.liveSurface (s.argN 0) = true → s.argN 1 < 2 ^ 16 → s.argN 2 < 2 ^ 16 → s.argN 3 ≤ 255 → ∃ t : State,
      exec .sputpix s = .next t ∧ PixelsOnly s t (s.argN 0) ∧
      ∀ a, (t.surfaceByte (s.argN 0) a).toNat =
        if a = s.argN 2 % s.height (s.argN 0) * s.width (s.argN 0) + s.argN 1 % s.width (s.argN 0) then s.argN 3
        else (s.surfaceByte (s.argN 0) a).toNat)

/-- R72. -/
def Obligations.SinfoReadsDimensions : Prop :=
  encode .sinfo = 0x15 ∧ ∀ s : State,
    (s.liveSurface (s.argN 0) = false → Raises .sinfo s .badHandle) ∧
    (∀ S, s.surface? (s.argN 0) = some S → ∃ r : Word,
      exec .sinfo s = .next { s with status := .ok, result := r } ∧
      r.extractLsb' 0 16 = S.w ∧ r.extractLsb' 16 16 = S.h)

/-! ### Blit commands (42_blit.md) -/

/-- R73, R74: the faults, the visit of every offset in row-major order, each read before its own write, and what stays. -/
def Obligations.BlitMaskedVisitsEveryOffset : Prop :=
  encode .blitMasked = 0x20 ∧ ∀ s : State,
    let src := s.argN 0
    let dst := s.argN 1
    (s.liveSurface src = false ∨ s.liveSurface dst = false → Raises .blitMasked s .badHandle) ∧
    (s.liveSurface src = true → s.liveSurface dst = true →
      (∃ k : Fin 10, 2 ≤ k.val ∧ k.val ≤ 7 ∧ 2 ^ 16 ≤ s.argN k) → Raises .blitMasked s .badArg) ∧
    (MaskedLegal s → ∃ t : State, exec .blitMasked s = .next t ∧
      t = ((rowMajor (s.argN 6) (s.argN 7)).foldl (fun u p =>
          let v := u.pixel src ((s.argN 2 + p.1) % s.width src) ((s.argN 3 + p.2) % s.height src)
          if v ≠ 0 then u.setPixel dst ((s.argN 4 + p.1) % s.width dst) ((s.argN 5 + p.2) % s.height dst) v else u)
        s).complete .ok 0 ∧
      PixelsOnly s t dst ∧
      ∀ a, (∀ x y, x < s.argN 6 → y < s.argN 7 →
          a ≠ (s.argN 5 + y) % s.height dst * s.width dst + (s.argN 4 + x) % s.width dst) →
        t.surfaceByte dst a = s.surfaceByte dst a)

/-- R73, R75: the same for the resampled copy. -/
def Obligations.BlitStretchVisitsEveryOffset : Prop :=
  encode .blitStretch = 0x21 ∧ ∀ s : State,
    let src := s.argN 0
    let dst := s.argN 1
    (s.liveSurface src = false ∨ s.liveSurface dst = false → Raises .blitStretch s .badHandle) ∧
    (s.liveSurface src = true → s.liveSurface dst = true →
      (∃ k : Fin 10, 2 ≤ k.val ∧ 2 ^ 16 ≤ s.argN k) → Raises .blitStretch s .badArg) ∧
    (s.liveSurface src = true → s.liveSurface dst = true → (∀ k : Fin 10, 2 ≤ k.val → s.argN k < 2 ^ 16) →
      s.argN 8 = 0 ∨ s.argN 9 = 0 → Raises .blitStretch s .zeroDim) ∧
    (StretchLegal s → ∃ t : State, exec .blitStretch s = .next t ∧
      t = ((rowMajor (s.argN 8) (s.argN 9)).foldl (fun u p =>
          let v := u.pixel src ((p.1 + s.argN 2) * s.argN 4 / s.argN 8 % s.width src)
            ((p.2 + s.argN 3) * s.argN 5 / s.argN 9 % s.height src)
          if v ≠ 0 then u.setPixel dst ((s.argN 6 + p.1) % s.width dst) ((s.argN 7 + p.2) % s.height dst) v else u)
        s).complete .ok 0 ∧
      PixelsOnly s t dst ∧
      ∀ a, (∀ x y, x < s.argN 8 → y < s.argN 9 →
          a ≠ (s.argN 7 + y) % s.height dst * s.width dst + (s.argN 6 + x) % s.width dst) →
        t.surfaceByte dst a = s.surfaceByte dst a)

/-- R74, R75: onto another surface, and with a rectangle no larger than the destination, a blit's result is independent of
order (R122): each destination pixel of the rectangle takes its source pixel where that is not 0, and else stays. -/
def Obligations.BlitOntoAnotherSurface : Prop :=
  ∀ s : State, s.argN 0 ≠ s.argN 1 → 1 ≤ s.width (s.argN 1) → 1 ≤ s.height (s.argN 1) →
    (MaskedLegal s → s.argN 6 ≤ s.width (s.argN 1) → s.argN 7 ≤ s.height (s.argN 1) →
      ∃ t, exec .blitMasked s = .next t ∧ ∀ x y, x < s.argN 6 → y < s.argN 7 →
        let v := s.pixel (s.argN 0) ((s.argN 2 + x) % s.width (s.argN 0)) ((s.argN 3 + y) % s.height (s.argN 0))
        let u := (s.argN 4 + x) % s.width (s.argN 1)
        let w := (s.argN 5 + y) % s.height (s.argN 1)
        t.pixel (s.argN 1) u w = if v = 0 then s.pixel (s.argN 1) u w else v) ∧
    (StretchLegal s → s.argN 8 ≤ s.width (s.argN 1) → s.argN 9 ≤ s.height (s.argN 1) →
      ∃ t, exec .blitStretch s = .next t ∧ ∀ x y, x < s.argN 8 → y < s.argN 9 →
        let v := s.pixel (s.argN 0) ((x + s.argN 2) * s.argN 4 / s.argN 8 % s.width (s.argN 0))
          ((y + s.argN 3) * s.argN 5 / s.argN 9 % s.height (s.argN 0))
        let u := (s.argN 6 + x) % s.width (s.argN 1)
        let w := (s.argN 7 + y) % s.height (s.argN 1)
        t.pixel (s.argN 1) u w = if v = 0 then s.pixel (s.argN 1) u w else v)

/-- R76 (a) and (b): an opaque source leaves every pixel of the rectangle holding a source value, a transparent one changes
nothing, and a source offset of Sw is an offset of 0. -/
def Obligations.MaskedBlitLaws : Prop :=
  ∀ s : State, MaskedLegal s →
    (s.surfacesOk →
      (∀ x y, x < s.width (s.argN 0) → y < s.height (s.argN 0) → s.pixel (s.argN 0) x y ≠ 0) →
      ∃ t, exec .blitMasked s = .next t ∧ ∀ x y, x < s.argN 6 → y < s.argN 7 →
        ∃ sx sy, sx < s.width (s.argN 0) ∧ sy < s.height (s.argN 0) ∧
          t.pixel (s.argN 1) ((s.argN 4 + x) % s.width (s.argN 1)) ((s.argN 5 + y) % s.height (s.argN 1)) =
            s.pixel (s.argN 0) sx sy) ∧
    (s.surfacesOk →
      (∀ x y, x < s.width (s.argN 0) → y < s.height (s.argN 0) → s.pixel (s.argN 0) x y = 0) →
      exec .blitMasked s = .next { s with status := .ok, result := 0 }) ∧
    (s.argN 2 = s.width (s.argN 0) → ∃ t, exec .blitMasked s = .next t ∧
      exec .blitMasked { s with args := s.args.set 2 0 } = .next { t with args := s.args.set 2 0 })

/-- R76 (c): with srcW = dstW and srcH = dstH the stretch blit is the masked blit over the same rectangle, at any offsets. -/
def Obligations.StretchAtRatioOneIsMasked : Prop :=
  ∀ (s : State) (args : Vector Word 10), StretchLegal s → s.argN 4 = s.argN 8 → s.argN 5 = s.argN 9 →
    args[0] = s.arg 0 → args[1] = s.arg 1 → args[2] = s.arg 2 → args[3] = s.arg 3 → args[4] = s.arg 6 →
    args[5] = s.arg 7 → args[6] = s.arg 8 → args[7] = s.arg 9 →
    ∃ t, exec .blitStretch s = .next t ∧ exec .blitMasked { s with args := args } = .next { t with args := args }

/-! ### Sample commands (43_sample.md) -/

/-- R77. `allocSample` is the oracle's answer: every handle of R45 it may give, and its failure, are taken over from
`nextAnswer`. How the model keeps answers (the fields left open here) is its own, log 3; what it makes of an answer that names
another handle is too, log 4, and not stated. -/
def Obligations.SmpcreateMakesASample : Prop :=
  encode .smpcreate = 0x30 ∧ ∀ s : State,
    let legal := (s.argN 0 = 8 ∨ s.argN 0 = 16) ∧ (s.argN 1 = 1 ∨ s.argN 1 = 2)
    (¬legal → Raises .smpcreate s .badArg) ∧
    (legal → s.allocSample = none → ∃ t : State, exec .smpcreate s = .next t ∧
      t = { s with answers := t.answers, asked := t.asked, status := .allocFail, result := 0 }) ∧
    (legal → ∀ r, s.allocSample = some r → ∃ (t : State) (M : Sample),
      exec .smpcreate s = .next t ∧
      t = { s with answers := t.answers, asked := t.asked, samples := t.samples, status := .ok,
                   result := BitVec.ofNat 32 r } ∧
      1 ≤ r ∧ r ≤ s.cfg.maxSamples ∧ s.liveSample r = false ∧
      t.sample? r = some M ∧ M.bits.toNat = s.argN 0 ∧ M.channels.toNat = s.argN 1 ∧ M.rate = s.arg 2 ∧
      M.len = s.arg 3 ∧ M.loopStart = 0 ∧ M.loopEnd = s.arg 3 ∧ M.priority.toNat = 128 ∧
      M.size = s.argN 3 * (if s.argN 0 = 8 then 1 else 2) * (if s.argN 1 = 2 then 2 else 1) ∧
      (∀ a, a < M.size → Memory.read M.data a =
        ((s.nextAnswer.contents.find? (fun c => c.1 = a)).map Prod.snd).getD 0) ∧
      ∀ m, m ≠ r → t.sample? m = s.sample? m) ∧
    (∀ r, 1 ≤ r → r ≤ s.cfg.maxSamples → s.liveSample r = false → s.nextAnswer.handle = some r →
      s.allocSample = some r) ∧
    (s.nextAnswer.handle = none → s.allocSample = none) ∧
    ((∀ m, 1 ≤ m → m ≤ s.cfg.maxSamples → s.liveSample m = true) → s.allocSample = none)

/-- R78. -/
def Obligations.SmpdestroyEndsASample : Prop :=
  encode .smpdestroy = 0x31 ∧ ∀ s : State,
    let busy := ∃ v : Fin 32, v.val < s.cfg.maxVoices ∧ s.voices[v].playing = true ∧ s.voices[v].sample = s.arg 0
    (s.argN 0 ≠ 0 → s.liveSample (s.argN 0) = false → Raises .smpdestroy s .badHandle) ∧
    (s.liveSample (s.argN 0) = true → busy → Raises .smpdestroy s .sampleBusy) ∧
    (s.argN 0 = 0 → exec .smpdestroy s = .next { s with status := .ok, result := 0 }) ∧
    (s.liveSample (s.argN 0) = true → ¬busy → ∃ t : State, exec .smpdestroy s = .next t ∧
      t = { s with samples := t.samples, status := .ok, result := 0 } ∧
      t.liveSample (s.argN 0) = false ∧ ∀ m, m ≠ s.argN 0 → t.sample? m = s.sample? m)

/-- R79. -/
def Obligations.SmpwriteWritesAByte : Prop :=
  encode .smpwrite = 0x32 ∧ ∀ s : State,
    (s.liveSample (s.argN 0) = false → Raises .smpwrite s .badHandle) ∧
    (s.liveSample (s.argN 0) = true → 255 < s.argN 2 ∨ s.sampleSize (s.argN 0) ≤ s.argN 1 →
      Raises .smpwrite s .badArg) ∧
    (∀ M, s.sample? (s.argN 0) = some M → s.argN 2 ≤ 255 → s.argN 1 < M.size → ∃ (t : State) (N : Sample),
      exec .smpwrite s = .next t ∧ t = { s with samples := t.samples, status := .ok, result := 0 } ∧
      t.sample? (s.argN 0) = some N ∧ N = { M with data := N.data } ∧
      (∀ a, (Memory.read N.data a).toNat = if a = s.argN 1 then s.argN 2 else (Memory.read M.data a).toNat) ∧
      ∀ m, m ≠ s.argN 0 → t.sample? m = s.sample? m)

/-- R80. -/
def Obligations.SmpreadReadsAByte : Prop :=
  encode .smpread = 0x33 ∧ ∀ s : State,
    (s.liveSample (s.argN 0) = false → Raises .smpread s .badHandle) ∧
    (∀ M, s.sample? (s.argN 0) = some M →
      (M.size ≤ s.argN 1 → Raises .smpread s .badArg) ∧
      (s.argN 1 < M.size → ∃ r : Word, exec .smpread s = .next { s with status := .ok, result := r } ∧
        r.toNat = (Memory.read M.data (s.argN 1)).toNat))

/-- R81. -/
def Obligations.SmpinfoReadsMetadata : Prop :=
  encode .smpinfo = 0x34 ∧ ∀ s : State,
    (s.liveSample (s.argN 0) = false → Raises .smpinfo s .badHandle) ∧
    (∀ M, s.sample? (s.argN 0) = some M →
      (6 < s.argN 1 → Raises .smpinfo s .badArg) ∧
      (∀ h : s.argN 1 < 7, ∃ r : Word, exec .smpinfo s = .next { s with status := .ok, result := r } ∧
        r.toNat = [M.bits.toNat, M.channels.toNat, M.rate.toNat, M.len.toNat, M.loopStart.toNat, M.loopEnd.toNat,
          M.priority.toNat][s.argN 1]))

/-! ### Voice pool commands (44_voice_pool.md) -/

/-- R82: the pool check of every pool command, and after it the voice check of every command that takes a voice id, before any
other check. -/
def Obligations.PoolAndVoiceChecksComeFirst : Prop :=
  ∀ (i : Instr) (s : State), needsPool i = true →
    (s.poolState = .uninit → Raises i s .poolNotReady) ∧ (s.poolState = .failed → Raises i s .poolFailed) ∧
      (i ≠ .valloc → s.poolState = .ready →
        s.capacity.toNat ≤ s.argN 0 ∨ s.availMask.getLsbD (s.argN 0) = false → Raises i s .badVoice)

/-- R83. `nextAnswer` is the init oracle's answer; how the model keeps answers (the fields left open here) is its own, log 3. -/
def Obligations.PinitInitialisesThePool : Prop :=
  encode .pinit = 0x40 ∧ ∀ s : State,
    (s.poolState = .ready → Raises .pinit s .badState) ∧
    (s.poolState = .failed → Raises .pinit s .poolFailed) ∧
    (s.poolState = .uninit → s.cfg.maxVoices < s.argN 0 → Raises .pinit s .badArg) ∧
    (s.poolState = .uninit → s.argN 0 ≤ s.cfg.maxVoices → s.cfg.backendPresent = true →
      s.nextAnswer.backendMask = none → ∃ t : State, exec .pinit s = .next t ∧
        t = { s with log := s.log ++ [.init], answers := t.answers, asked := t.asked, poolState := .failed,
                     status := .initFail, result := 0 }) ∧
    (∀ mask : Word, s.poolState = .uninit → s.argN 0 ≤ s.cfg.maxVoices →
      (s.cfg.backendPresent = true ∧ s.nextAnswer.backendMask = some mask) ∨
        (s.cfg.backendPresent = false ∧ mask = 0xFFFFFFFF) →
      ∃ t : State, exec .pinit s = .next t ∧
        t = { s with
              log := s.log ++ (if s.cfg.backendPresent then [.init] else [])
              answers := t.answers, asked := t.asked
              voices := t.voices, availMask := t.availMask, freeMask := t.availMask, capacity := t.capacity
              poolState := .ready, status := .ok, result := 0 } ∧
        t.capacity.toNat = s.argN 0 ∧
        (∀ v : Fin 32, t.availMask.getLsbD v = (mask.getLsbD v && decide (v.val < s.argN 0))) ∧
        (∀ v : Fin 32, v.val < s.cfg.maxVoices → t.voices[v] =
          { playing := false, loop := false, sample := 0, position := 0, rate := 0, vol := 0, pan := 128 }))

/-- R84. -/
def Obligations.VallocTakesTheLowestFreeVoice : Prop :=
  encode .valloc = 0x41 ∧ ∀ s : State,
    (s.poolState = .uninit → Raises .valloc s .poolNotReady) ∧
    (s.poolState = .failed → Raises .valloc s .poolFailed) ∧
    (s.poolState = .ready → s.argN 0 ≠ 0 → s.liveSample (s.argN 0) = false → Raises .valloc s .badHandle) ∧
    (∀ (i : Fin 32) (rate : Word), s.poolState = .ready →
      (s.argN 0 = 0 ∧ rate = 0) ∨ (∃ M, s.sample? (s.argN 0) = some M ∧ rate = M.rate) →
      i.val < s.capacity.toNat → s.freeMask.getLsbD i = true → (∀ j : Fin 32, j < i → s.freeMask.getLsbD j = false) →
      ∃ free : Word, exec .valloc s = .next
        { s with
          freeMask := free
          voices := s.voices.set i { s.voices[i] with playing := false, position := 0, rate := rate, sample := s.arg 0 }
          status := .ok
          result := BitVec.ofNat 32 i.val } ∧
        ∀ j : Fin 32, free.getLsbD j = (s.freeMask.getLsbD j && decide (j ≠ i))) ∧
    (s.poolState = .ready → s.argN 0 = 0 ∨ s.liveSample (s.argN 0) = true →
      (∀ j : Fin 32, j.val < s.capacity.toNat → s.freeMask.getLsbD j = false) →
      exec .valloc s = .next { s with status := .noneFree, result := 0xFFFFFFFF })

/-- R85. -/
def Obligations.VfreeSilencesAndFrees : Prop :=
  encode .vfree = 0x42 ∧ ∀ s : State, VoiceGuarded .vfree s ∧
    ∀ v : Fin 32, VoiceNamed s v → ∃ free : Word,
      exec .vfree s = .next
        { s with
          log := s.log ++ [.silence v]
          voices := s.voices.set v { s.voices[v] with playing := false }
          freeMask := free
          status := .ok
          result := 0 } ∧
      ∀ j : Fin 32, free.getLsbD j = (s.freeMask.getLsbD j || decide (j = v))

/-! ### Voice control commands (45_voice_control.md) -/

/-- R86: `do_start`. -/
def Obligations.StartProcedure : Prop :=
  ∀ (s : State) (v : Fin 32),
    (s.freeMask.getLsbD v = true → s.startVoice v = s) ∧
    (s.liveSample s.voices[v].sample.toNat = false → s.startVoice v = s) ∧
    (s.sampleSize s.voices[v].sample.toNat = 0 → s.startVoice v = s) ∧
    (∀ M, s.freeMask.getLsbD v = false → s.sample? s.voices[v].sample.toNat = some M → M.size ≠ 0 →
      s.startVoice v =
        { s with
          voices := s.voices.set v { s.voices[v] with playing := true }
          log := s.log ++ [.play v s.voices[v].loop (if M.bits = .bits8 then .pcm8 else .pcm16) s.voices[v].rate
            s.voices[v].vol s.voices[v].pan s.voices[v].sample (byteLen s.cfg.stereoByteLen M)] })

/-- R87: `bytelen` in both modes, and its 34 bits. -/
def Obligations.ByteLength : Prop :=
  ∀ M : Sample,
    byteLen .legacy M * 8 = M.len.toNat * M.bits.toNat ∧
      byteLen .fixed M * 8 = M.len.toNat * M.bits.toNat * M.channels.toNat ∧
      (M.channels = .stereo → byteLen .legacy M * 2 = M.size) ∧ byteLen .fixed M = M.size ∧
      (∀ mode, byteLen mode M < 2 ^ 34)

/-- R88: the normalized values, exact rationals, and their ranges. -/
def Obligations.VolumeAndPanRanges : Prop :=
  (∀ c : Byte, volumeN c = (c.toNat : ℚ) / 255 ∧ panN c = ((c.toNat : ℚ) - 128) / 128) ∧
    (∀ c : Byte, 0 ≤ volumeN c ∧ volumeN c ≤ 1 ∧ -1 ≤ panN c ∧ panN c ≤ 127 / 128) ∧
    volumeN 0 = 0 ∧ volumeN 255 = 1 ∧ panN 0 = -1 ∧ panN 255 = 127 / 128 ∧ panN 128 = 0

/-- R89. -/
def Obligations.VplaymodeSetsLoop : Prop :=
  encode .vplaymode = 0x50 ∧ ∀ s : State, VoiceGuarded .vplaymode s ∧
    ∀ v : Fin 32, VoiceNamed s v → exec .vplaymode s = .next
      { s with
        voices := s.voices.set v { s.voices[v] with loop := decide (s.argN 1 % 2 = 1) }
        log := s.log ++ [.setLoop v (decide (s.argN 1 % 2 = 1))]
        status := .ok
        result := 0 }

/-- R90: VSTART runs the start procedure of R86; every guard still completes OK. -/
def Obligations.VstartStarts : Prop :=
  encode .vstart = 0x51 ∧ ∀ s : State, VoiceGuarded .vstart s ∧
    ∀ v : Fin 32, VoiceNamed s v → exec .vstart s = .next { s.startVoice v with status := .ok, result := 0 } ∧
      (s.freeMask.getLsbD v = true ∨ s.voices[v].sample = 0 ∨ s.liveSample s.voices[v].sample.toNat = false ∨
          s.sampleSize s.voices[v].sample.toNat = 0 →
        exec .vstart s = .next { s with status := .ok, result := 0 })

/-- R91. -/
def Obligations.VstopSilences : Prop :=
  encode .vstop = 0x52 ∧ ∀ s : State, VoiceGuarded .vstop s ∧
    ∀ v : Fin 32, VoiceNamed s v → exec .vstop s = .next
      { s with
        log := s.log ++ [.silence v]
        voices := s.voices.set v { s.voices[v] with playing := false }
        status := .ok
        result := 0 }

/-- R92: the position is stored; the voice restarts exactly when it plays and the position is 0. -/
def Obligations.VsetposStoresOrRestarts : Prop :=
  encode .vsetpos = 0x53 ∧ ∀ s : State, VoiceGuarded .vsetpos s ∧
    ∀ v : Fin 32, VoiceNamed s v →
      let stored := { s with voices := s.voices.set v { s.voices[v] with position := s.arg 1 } }
      (s.voices[v].playing = true → s.arg 1 = 0 →
        exec .vsetpos s = .next { stored.startVoice v with status := .ok, result := 0 }) ∧
      (s.voices[v].playing = false ∨ s.arg 1 ≠ 0 →
        exec .vsetpos s = .next { stored with status := .ok, result := 0 })

/-- R93, R96: the rate is stored, from ARG1 or ARG2, and a playing voice restarts; VSWEEPFREQ ignores its time. -/
def Obligations.RateCommandsStoreAndRestart : Prop :=
  encode .vsetfreq = 0x54 ∧ encode .vsweepfreq = 0x57 ∧
    ∀ s : State, VoiceGuarded .vsetfreq s ∧ VoiceGuarded .vsweepfreq s ∧
    ∀ (i : Instr) (rate : Word) (v : Fin 32), (i = .vsetfreq ∧ rate = s.arg 1) ∨ (i = .vsweepfreq ∧ rate = s.arg 2) →
      VoiceNamed s v →
      let stored := { s with voices := s.voices.set v { s.voices[v] with rate := rate } }
      (s.voices[v].playing = true → exec i s = .next { stored.startVoice v with status := .ok, result := 0 }) ∧
      (s.voices[v].playing = false → exec i s = .next { stored with status := .ok, result := 0 })

/-- R94, R97: the volume code is stored, from ARG1 or ARG2, and sent if the voice plays; VRAMPVOL ignores its time. -/
def Obligations.VolumeCommandsStoreAndPush : Prop :=
  encode .vsetvol = 0x55 ∧ encode .vrampvol = 0x58 ∧
    ∀ s : State, VoiceGuarded .vsetvol s ∧ VoiceGuarded .vrampvol s ∧
    ∀ (i : Instr) (k : Fin 10) (v : Fin 32), (i = .vsetvol ∧ k = 1) ∨ (i = .vrampvol ∧ k = 2) → VoiceNamed s v →
      (255 < s.argN k → Raises i s .badArg) ∧
      (∀ vol : Byte, vol.toNat = s.argN k → exec i s = .next
        { s with
          voices := s.voices.set v { s.voices[v] with vol := vol }
          log := s.log ++ (if s.voices[v].playing then [.setVolPan v vol s.voices[v].pan] else [])
          status := .ok
          result := 0 })

/-- R95. -/
def Obligations.VsetpanStoresAndPushes : Prop :=
  encode .vsetpan = 0x56 ∧ ∀ s : State, VoiceGuarded .vsetpan s ∧
    ∀ v : Fin 32, VoiceNamed s v →
      (255 < s.argN 1 → Raises .vsetpan s .badArg) ∧
      (∀ pan : Byte, pan.toNat = s.argN 1 → exec .vsetpan s = .next
        { s with
          voices := s.voices.set v { s.voices[v] with pan := pan }
          log := s.log ++ (if s.voices[v].playing then [.setVolPan v s.voices[v].vol pan] else [])
          status := .ok
          result := 0 })
end

