-- ==== Sys2Proof/Laws/State.lean ====
section
/-! SUPPORT. One lemma per field per shared update of the state, true by definition, so that no later proof unfolds a record
update; and for fault entry, which fields it leaves. -/

namespace Sys2Proof.Machine

/-! ### complete -/

@[simp] theorem State.complete_cmd (s : State) (st : Status) (r : Word) : (s.complete st r).cmd = s.cmd := rfl
@[simp] theorem State.complete_status (s : State) (st : Status) (r : Word) : (s.complete st r).status = st := rfl
@[simp] theorem State.complete_result (s : State) (st : Status) (r : Word) : (s.complete st r).result = r := rfl
@[simp] theorem State.complete_fault (s : State) (st : Status) (r : Word) : (s.complete st r).fault = s.fault := rfl
@[simp] theorem State.complete_faultCmd (s : State) (st : Status) (r : Word) : (s.complete st r).faultCmd = s.faultCmd := rfl
@[simp] theorem State.complete_args (s : State) (st : Status) (r : Word) : (s.complete st r).args = s.args := rfl
@[simp] theorem State.complete_poolState (s : State) (st : Status) (r : Word) : (s.complete st r).poolState = s.poolState := rfl
@[simp] theorem State.complete_capacity (s : State) (st : Status) (r : Word) : (s.complete st r).capacity = s.capacity := rfl
@[simp] theorem State.complete_freeMask (s : State) (st : Status) (r : Word) : (s.complete st r).freeMask = s.freeMask := rfl
@[simp] theorem State.complete_availMask (s : State) (st : Status) (r : Word) : (s.complete st r).availMask = s.availMask := rfl
@[simp] theorem State.complete_voices (s : State) (st : Status) (r : Word) : (s.complete st r).voices = s.voices := rfl
@[simp] theorem State.complete_surfaces (s : State) (st : Status) (r : Word) : (s.complete st r).surfaces = s.surfaces := rfl
@[simp] theorem State.complete_samples (s : State) (st : Status) (r : Word) : (s.complete st r).samples = s.samples := rfl
@[simp] theorem State.complete_log (s : State) (st : Status) (r : Word) : (s.complete st r).log = s.log := rfl
@[simp] theorem State.complete_cfg (s : State) (st : Status) (r : Word) : (s.complete st r).cfg = s.cfg := rfl
@[simp] theorem State.complete_pending (s : State) (st : Status) (r : Word) : (s.complete st r).pending = s.pending := rfl
@[simp] theorem State.complete_answers (s : State) (st : Status) (r : Word) : (s.complete st r).answers = s.answers := rfl
@[simp] theorem State.complete_asked (s : State) (st : Status) (r : Word) : (s.complete st r).asked = s.asked := rfl
@[simp] theorem State.complete_reads (s : State) (st : Status) (r : Word) : (s.complete st r).reads = s.reads := rfl
@[simp] theorem State.complete_seen (s : State) (st : Status) (r : Word) : (s.complete st r).seen = s.seen := rfl

/-! ### setVoice -/

@[simp] theorem State.setVoice_cmd (s : State) (v : Fin 32) (V : Voice) : (s.setVoice v V).cmd = s.cmd := rfl
@[simp] theorem State.setVoice_status (s : State) (v : Fin 32) (V : Voice) : (s.setVoice v V).status = s.status := rfl
@[simp] theorem State.setVoice_result (s : State) (v : Fin 32) (V : Voice) : (s.setVoice v V).result = s.result := rfl
@[simp] theorem State.setVoice_fault (s : State) (v : Fin 32) (V : Voice) : (s.setVoice v V).fault = s.fault := rfl
@[simp] theorem State.setVoice_faultCmd (s : State) (v : Fin 32) (V : Voice) : (s.setVoice v V).faultCmd = s.faultCmd := rfl
@[simp] theorem State.setVoice_args (s : State) (v : Fin 32) (V : Voice) : (s.setVoice v V).args = s.args := rfl
@[simp] theorem State.setVoice_poolState (s : State) (v : Fin 32) (V : Voice) : (s.setVoice v V).poolState = s.poolState := rfl
@[simp] theorem State.setVoice_capacity (s : State) (v : Fin 32) (V : Voice) : (s.setVoice v V).capacity = s.capacity := rfl
@[simp] theorem State.setVoice_freeMask (s : State) (v : Fin 32) (V : Voice) : (s.setVoice v V).freeMask = s.freeMask := rfl
@[simp] theorem State.setVoice_availMask (s : State) (v : Fin 32) (V : Voice) : (s.setVoice v V).availMask = s.availMask := rfl
@[simp] theorem State.setVoice_voices (s : State) (v : Fin 32) (V : Voice) : (s.setVoice v V).voices = s.voices.set v V := rfl
@[simp] theorem State.setVoice_surfaces (s : State) (v : Fin 32) (V : Voice) : (s.setVoice v V).surfaces = s.surfaces := rfl
@[simp] theorem State.setVoice_samples (s : State) (v : Fin 32) (V : Voice) : (s.setVoice v V).samples = s.samples := rfl
@[simp] theorem State.setVoice_log (s : State) (v : Fin 32) (V : Voice) : (s.setVoice v V).log = s.log := rfl
@[simp] theorem State.setVoice_cfg (s : State) (v : Fin 32) (V : Voice) : (s.setVoice v V).cfg = s.cfg := rfl
@[simp] theorem State.setVoice_pending (s : State) (v : Fin 32) (V : Voice) : (s.setVoice v V).pending = s.pending := rfl
@[simp] theorem State.setVoice_answers (s : State) (v : Fin 32) (V : Voice) : (s.setVoice v V).answers = s.answers := rfl
@[simp] theorem State.setVoice_asked (s : State) (v : Fin 32) (V : Voice) : (s.setVoice v V).asked = s.asked := rfl
@[simp] theorem State.setVoice_reads (s : State) (v : Fin 32) (V : Voice) : (s.setVoice v V).reads = s.reads := rfl
@[simp] theorem State.setVoice_seen (s : State) (v : Fin 32) (V : Voice) : (s.setVoice v V).seen = s.seen := rfl

/-! ### emit -/

@[simp] theorem State.emit_cmd (s : State) (e : BackendCmd) : (s.emit e).cmd = s.cmd := rfl
@[simp] theorem State.emit_status (s : State) (e : BackendCmd) : (s.emit e).status = s.status := rfl
@[simp] theorem State.emit_result (s : State) (e : BackendCmd) : (s.emit e).result = s.result := rfl
@[simp] theorem State.emit_fault (s : State) (e : BackendCmd) : (s.emit e).fault = s.fault := rfl
@[simp] theorem State.emit_faultCmd (s : State) (e : BackendCmd) : (s.emit e).faultCmd = s.faultCmd := rfl
@[simp] theorem State.emit_args (s : State) (e : BackendCmd) : (s.emit e).args = s.args := rfl
@[simp] theorem State.emit_poolState (s : State) (e : BackendCmd) : (s.emit e).poolState = s.poolState := rfl
@[simp] theorem State.emit_capacity (s : State) (e : BackendCmd) : (s.emit e).capacity = s.capacity := rfl
@[simp] theorem State.emit_freeMask (s : State) (e : BackendCmd) : (s.emit e).freeMask = s.freeMask := rfl
@[simp] theorem State.emit_availMask (s : State) (e : BackendCmd) : (s.emit e).availMask = s.availMask := rfl
@[simp] theorem State.emit_voices (s : State) (e : BackendCmd) : (s.emit e).voices = s.voices := rfl
@[simp] theorem State.emit_surfaces (s : State) (e : BackendCmd) : (s.emit e).surfaces = s.surfaces := rfl
@[simp] theorem State.emit_samples (s : State) (e : BackendCmd) : (s.emit e).samples = s.samples := rfl
@[simp] theorem State.emit_log (s : State) (e : BackendCmd) : (s.emit e).log = s.log ++ [e] := rfl
@[simp] theorem State.emit_cfg (s : State) (e : BackendCmd) : (s.emit e).cfg = s.cfg := rfl
@[simp] theorem State.emit_pending (s : State) (e : BackendCmd) : (s.emit e).pending = s.pending := rfl
@[simp] theorem State.emit_answers (s : State) (e : BackendCmd) : (s.emit e).answers = s.answers := rfl
@[simp] theorem State.emit_asked (s : State) (e : BackendCmd) : (s.emit e).asked = s.asked := rfl
@[simp] theorem State.emit_reads (s : State) (e : BackendCmd) : (s.emit e).reads = s.reads := rfl
@[simp] theorem State.emit_seen (s : State) (e : BackendCmd) : (s.emit e).seen = s.seen := rfl

/-! ### asking -/

@[simp] theorem State.asking_cmd (s : State) : s.asking.cmd = s.cmd := rfl
@[simp] theorem State.asking_status (s : State) : s.asking.status = s.status := rfl
@[simp] theorem State.asking_result (s : State) : s.asking.result = s.result := rfl
@[simp] theorem State.asking_fault (s : State) : s.asking.fault = s.fault := rfl
@[simp] theorem State.asking_faultCmd (s : State) : s.asking.faultCmd = s.faultCmd := rfl
@[simp] theorem State.asking_args (s : State) : s.asking.args = s.args := rfl
@[simp] theorem State.asking_poolState (s : State) : s.asking.poolState = s.poolState := rfl
@[simp] theorem State.asking_capacity (s : State) : s.asking.capacity = s.capacity := rfl
@[simp] theorem State.asking_freeMask (s : State) : s.asking.freeMask = s.freeMask := rfl
@[simp] theorem State.asking_availMask (s : State) : s.asking.availMask = s.availMask := rfl
@[simp] theorem State.asking_voices (s : State) : s.asking.voices = s.voices := rfl
@[simp] theorem State.asking_surfaces (s : State) : s.asking.surfaces = s.surfaces := rfl
@[simp] theorem State.asking_samples (s : State) : s.asking.samples = s.samples := rfl
@[simp] theorem State.asking_log (s : State) : s.asking.log = s.log := rfl
@[simp] theorem State.asking_cfg (s : State) : s.asking.cfg = s.cfg := rfl
@[simp] theorem State.asking_pending (s : State) : s.asking.pending = s.pending := rfl
@[simp] theorem State.asking_answers (s : State) : s.asking.answers = s.answers.tail := rfl
@[simp] theorem State.asking_asked (s : State) : s.asking.asked = s.asked + 1 := rfl
@[simp] theorem State.asking_reads (s : State) : s.asking.reads = s.reads := rfl
@[simp] theorem State.asking_seen (s : State) : s.asking.seen = s.seen := rfl

/-! ### putSurface -/

@[simp] theorem State.putSurface_cmd (s : State) (h : Nat) (S : Surface) : (s.putSurface h S).cmd = s.cmd := rfl
@[simp] theorem State.putSurface_status (s : State) (h : Nat) (S : Surface) : (s.putSurface h S).status = s.status := rfl
@[simp] theorem State.putSurface_result (s : State) (h : Nat) (S : Surface) : (s.putSurface h S).result = s.result := rfl
@[simp] theorem State.putSurface_fault (s : State) (h : Nat) (S : Surface) : (s.putSurface h S).fault = s.fault := rfl
@[simp] theorem State.putSurface_faultCmd (s : State) (h : Nat) (S : Surface) : (s.putSurface h S).faultCmd = s.faultCmd := rfl
@[simp] theorem State.putSurface_args (s : State) (h : Nat) (S : Surface) : (s.putSurface h S).args = s.args := rfl
@[simp] theorem State.putSurface_poolState (s : State) (h : Nat) (S : Surface) : (s.putSurface h S).poolState = s.poolState := rfl
@[simp] theorem State.putSurface_capacity (s : State) (h : Nat) (S : Surface) : (s.putSurface h S).capacity = s.capacity := rfl
@[simp] theorem State.putSurface_freeMask (s : State) (h : Nat) (S : Surface) : (s.putSurface h S).freeMask = s.freeMask := rfl
@[simp] theorem State.putSurface_availMask (s : State) (h : Nat) (S : Surface) : (s.putSurface h S).availMask = s.availMask := rfl
@[simp] theorem State.putSurface_voices (s : State) (h : Nat) (S : Surface) : (s.putSurface h S).voices = s.voices := rfl
@[simp] theorem State.putSurface_surfaces (s : State) (h : Nat) (S : Surface) : (s.putSurface h S).surfaces = Table.insert s.surfaces h S := rfl
@[simp] theorem State.putSurface_samples (s : State) (h : Nat) (S : Surface) : (s.putSurface h S).samples = s.samples := rfl
@[simp] theorem State.putSurface_log (s : State) (h : Nat) (S : Surface) : (s.putSurface h S).log = s.log := rfl
@[simp] theorem State.putSurface_cfg (s : State) (h : Nat) (S : Surface) : (s.putSurface h S).cfg = s.cfg := rfl
@[simp] theorem State.putSurface_pending (s : State) (h : Nat) (S : Surface) : (s.putSurface h S).pending = s.pending := rfl
@[simp] theorem State.putSurface_answers (s : State) (h : Nat) (S : Surface) : (s.putSurface h S).answers = s.answers := rfl
@[simp] theorem State.putSurface_asked (s : State) (h : Nat) (S : Surface) : (s.putSurface h S).asked = s.asked := rfl
@[simp] theorem State.putSurface_reads (s : State) (h : Nat) (S : Surface) : (s.putSurface h S).reads = s.reads := rfl
@[simp] theorem State.putSurface_seen (s : State) (h : Nat) (S : Surface) : (s.putSurface h S).seen = s.seen := rfl

/-! ### dropSurface -/

@[simp] theorem State.dropSurface_cmd (s : State) (h : Nat) : (s.dropSurface h).cmd = s.cmd := rfl
@[simp] theorem State.dropSurface_status (s : State) (h : Nat) : (s.dropSurface h).status = s.status := rfl
@[simp] theorem State.dropSurface_result (s : State) (h : Nat) : (s.dropSurface h).result = s.result := rfl
@[simp] theorem State.dropSurface_fault (s : State) (h : Nat) : (s.dropSurface h).fault = s.fault := rfl
@[simp] theorem State.dropSurface_faultCmd (s : State) (h : Nat) : (s.dropSurface h).faultCmd = s.faultCmd := rfl
@[simp] theorem State.dropSurface_args (s : State) (h : Nat) : (s.dropSurface h).args = s.args := rfl
@[simp] theorem State.dropSurface_poolState (s : State) (h : Nat) : (s.dropSurface h).poolState = s.poolState := rfl
@[simp] theorem State.dropSurface_capacity (s : State) (h : Nat) : (s.dropSurface h).capacity = s.capacity := rfl
@[simp] theorem State.dropSurface_freeMask (s : State) (h : Nat) : (s.dropSurface h).freeMask = s.freeMask := rfl
@[simp] theorem State.dropSurface_availMask (s : State) (h : Nat) : (s.dropSurface h).availMask = s.availMask := rfl
@[simp] theorem State.dropSurface_voices (s : State) (h : Nat) : (s.dropSurface h).voices = s.voices := rfl
@[simp] theorem State.dropSurface_surfaces (s : State) (h : Nat) : (s.dropSurface h).surfaces = Table.erase s.surfaces h := rfl
@[simp] theorem State.dropSurface_samples (s : State) (h : Nat) : (s.dropSurface h).samples = s.samples := rfl
@[simp] theorem State.dropSurface_log (s : State) (h : Nat) : (s.dropSurface h).log = s.log := rfl
@[simp] theorem State.dropSurface_cfg (s : State) (h : Nat) : (s.dropSurface h).cfg = s.cfg := rfl
@[simp] theorem State.dropSurface_pending (s : State) (h : Nat) : (s.dropSurface h).pending = s.pending := rfl
@[simp] theorem State.dropSurface_answers (s : State) (h : Nat) : (s.dropSurface h).answers = s.answers := rfl
@[simp] theorem State.dropSurface_asked (s : State) (h : Nat) : (s.dropSurface h).asked = s.asked := rfl
@[simp] theorem State.dropSurface_reads (s : State) (h : Nat) : (s.dropSurface h).reads = s.reads := rfl
@[simp] theorem State.dropSurface_seen (s : State) (h : Nat) : (s.dropSurface h).seen = s.seen := rfl

/-! ### putSample -/

@[simp] theorem State.putSample_cmd (s : State) (m : Nat) (M : Sample) : (s.putSample m M).cmd = s.cmd := rfl
@[simp] theorem State.putSample_status (s : State) (m : Nat) (M : Sample) : (s.putSample m M).status = s.status := rfl
@[simp] theorem State.putSample_result (s : State) (m : Nat) (M : Sample) : (s.putSample m M).result = s.result := rfl
@[simp] theorem State.putSample_fault (s : State) (m : Nat) (M : Sample) : (s.putSample m M).fault = s.fault := rfl
@[simp] theorem State.putSample_faultCmd (s : State) (m : Nat) (M : Sample) : (s.putSample m M).faultCmd = s.faultCmd := rfl
@[simp] theorem State.putSample_args (s : State) (m : Nat) (M : Sample) : (s.putSample m M).args = s.args := rfl
@[simp] theorem State.putSample_poolState (s : State) (m : Nat) (M : Sample) : (s.putSample m M).poolState = s.poolState := rfl
@[simp] theorem State.putSample_capacity (s : State) (m : Nat) (M : Sample) : (s.putSample m M).capacity = s.capacity := rfl
@[simp] theorem State.putSample_freeMask (s : State) (m : Nat) (M : Sample) : (s.putSample m M).freeMask = s.freeMask := rfl
@[simp] theorem State.putSample_availMask (s : State) (m : Nat) (M : Sample) : (s.putSample m M).availMask = s.availMask := rfl
@[simp] theorem State.putSample_voices (s : State) (m : Nat) (M : Sample) : (s.putSample m M).voices = s.voices := rfl
@[simp] theorem State.putSample_surfaces (s : State) (m : Nat) (M : Sample) : (s.putSample m M).surfaces = s.surfaces := rfl
@[simp] theorem State.putSample_samples (s : State) (m : Nat) (M : Sample) : (s.putSample m M).samples = Table.insert s.samples m M := rfl
@[simp] theorem State.putSample_log (s : State) (m : Nat) (M : Sample) : (s.putSample m M).log = s.log := rfl
@[simp] theorem State.putSample_cfg (s : State) (m : Nat) (M : Sample) : (s.putSample m M).cfg = s.cfg := rfl
@[simp] theorem State.putSample_pending (s : State) (m : Nat) (M : Sample) : (s.putSample m M).pending = s.pending := rfl
@[simp] theorem State.putSample_answers (s : State) (m : Nat) (M : Sample) : (s.putSample m M).answers = s.answers := rfl
@[simp] theorem State.putSample_asked (s : State) (m : Nat) (M : Sample) : (s.putSample m M).asked = s.asked := rfl
@[simp] theorem State.putSample_reads (s : State) (m : Nat) (M : Sample) : (s.putSample m M).reads = s.reads := rfl
@[simp] theorem State.putSample_seen (s : State) (m : Nat) (M : Sample) : (s.putSample m M).seen = s.seen := rfl

/-! ### dropSample -/

@[simp] theorem State.dropSample_cmd (s : State) (m : Nat) : (s.dropSample m).cmd = s.cmd := rfl
@[simp] theorem State.dropSample_status (s : State) (m : Nat) : (s.dropSample m).status = s.status := rfl
@[simp] theorem State.dropSample_result (s : State) (m : Nat) : (s.dropSample m).result = s.result := rfl
@[simp] theorem State.dropSample_fault (s : State) (m : Nat) : (s.dropSample m).fault = s.fault := rfl
@[simp] theorem State.dropSample_faultCmd (s : State) (m : Nat) : (s.dropSample m).faultCmd = s.faultCmd := rfl
@[simp] theorem State.dropSample_args (s : State) (m : Nat) : (s.dropSample m).args = s.args := rfl
@[simp] theorem State.dropSample_poolState (s : State) (m : Nat) : (s.dropSample m).poolState = s.poolState := rfl
@[simp] theorem State.dropSample_capacity (s : State) (m : Nat) : (s.dropSample m).capacity = s.capacity := rfl
@[simp] theorem State.dropSample_freeMask (s : State) (m : Nat) : (s.dropSample m).freeMask = s.freeMask := rfl
@[simp] theorem State.dropSample_availMask (s : State) (m : Nat) : (s.dropSample m).availMask = s.availMask := rfl
@[simp] theorem State.dropSample_voices (s : State) (m : Nat) : (s.dropSample m).voices = s.voices := rfl
@[simp] theorem State.dropSample_surfaces (s : State) (m : Nat) : (s.dropSample m).surfaces = s.surfaces := rfl
@[simp] theorem State.dropSample_samples (s : State) (m : Nat) : (s.dropSample m).samples = Table.erase s.samples m := rfl
@[simp] theorem State.dropSample_log (s : State) (m : Nat) : (s.dropSample m).log = s.log := rfl
@[simp] theorem State.dropSample_cfg (s : State) (m : Nat) : (s.dropSample m).cfg = s.cfg := rfl
@[simp] theorem State.dropSample_pending (s : State) (m : Nat) : (s.dropSample m).pending = s.pending := rfl
@[simp] theorem State.dropSample_answers (s : State) (m : Nat) : (s.dropSample m).answers = s.answers := rfl
@[simp] theorem State.dropSample_asked (s : State) (m : Nat) : (s.dropSample m).asked = s.asked := rfl
@[simp] theorem State.dropSample_reads (s : State) (m : Nat) : (s.dropSample m).reads = s.reads := rfl
@[simp] theorem State.dropSample_seen (s : State) (m : Nat) : (s.dropSample m).seen = s.seen := rfl

/-! ### markFree -/

@[simp] theorem State.markFree_cmd (s : State) (v : Fin 32) : (s.markFree v).cmd = s.cmd := rfl
@[simp] theorem State.markFree_status (s : State) (v : Fin 32) : (s.markFree v).status = s.status := rfl
@[simp] theorem State.markFree_result (s : State) (v : Fin 32) : (s.markFree v).result = s.result := rfl
@[simp] theorem State.markFree_fault (s : State) (v : Fin 32) : (s.markFree v).fault = s.fault := rfl
@[simp] theorem State.markFree_faultCmd (s : State) (v : Fin 32) : (s.markFree v).faultCmd = s.faultCmd := rfl
@[simp] theorem State.markFree_args (s : State) (v : Fin 32) : (s.markFree v).args = s.args := rfl
@[simp] theorem State.markFree_poolState (s : State) (v : Fin 32) : (s.markFree v).poolState = s.poolState := rfl
@[simp] theorem State.markFree_capacity (s : State) (v : Fin 32) : (s.markFree v).capacity = s.capacity := rfl
@[simp] theorem State.markFree_freeMask (s : State) (v : Fin 32) : (s.markFree v).freeMask = s.freeMask ||| (1#32 <<< v.val) := rfl
@[simp] theorem State.markFree_availMask (s : State) (v : Fin 32) : (s.markFree v).availMask = s.availMask := rfl
@[simp] theorem State.markFree_voices (s : State) (v : Fin 32) : (s.markFree v).voices = s.voices := rfl
@[simp] theorem State.markFree_surfaces (s : State) (v : Fin 32) : (s.markFree v).surfaces = s.surfaces := rfl
@[simp] theorem State.markFree_samples (s : State) (v : Fin 32) : (s.markFree v).samples = s.samples := rfl
@[simp] theorem State.markFree_log (s : State) (v : Fin 32) : (s.markFree v).log = s.log := rfl
@[simp] theorem State.markFree_cfg (s : State) (v : Fin 32) : (s.markFree v).cfg = s.cfg := rfl
@[simp] theorem State.markFree_pending (s : State) (v : Fin 32) : (s.markFree v).pending = s.pending := rfl
@[simp] theorem State.markFree_answers (s : State) (v : Fin 32) : (s.markFree v).answers = s.answers := rfl
@[simp] theorem State.markFree_asked (s : State) (v : Fin 32) : (s.markFree v).asked = s.asked := rfl
@[simp] theorem State.markFree_reads (s : State) (v : Fin 32) : (s.markFree v).reads = s.reads := rfl
@[simp] theorem State.markFree_seen (s : State) (v : Fin 32) : (s.markFree v).seen = s.seen := rfl

/-! ### markUsed -/

@[simp] theorem State.markUsed_cmd (s : State) (v : Fin 32) : (s.markUsed v).cmd = s.cmd := rfl
@[simp] theorem State.markUsed_status (s : State) (v : Fin 32) : (s.markUsed v).status = s.status := rfl
@[simp] theorem State.markUsed_result (s : State) (v : Fin 32) : (s.markUsed v).result = s.result := rfl
@[simp] theorem State.markUsed_fault (s : State) (v : Fin 32) : (s.markUsed v).fault = s.fault := rfl
@[simp] theorem State.markUsed_faultCmd (s : State) (v : Fin 32) : (s.markUsed v).faultCmd = s.faultCmd := rfl
@[simp] theorem State.markUsed_args (s : State) (v : Fin 32) : (s.markUsed v).args = s.args := rfl
@[simp] theorem State.markUsed_poolState (s : State) (v : Fin 32) : (s.markUsed v).poolState = s.poolState := rfl
@[simp] theorem State.markUsed_capacity (s : State) (v : Fin 32) : (s.markUsed v).capacity = s.capacity := rfl
@[simp] theorem State.markUsed_freeMask (s : State) (v : Fin 32) : (s.markUsed v).freeMask = s.freeMask &&& ~~~(1#32 <<< v.val) := rfl
@[simp] theorem State.markUsed_availMask (s : State) (v : Fin 32) : (s.markUsed v).availMask = s.availMask := rfl
@[simp] theorem State.markUsed_voices (s : State) (v : Fin 32) : (s.markUsed v).voices = s.voices := rfl
@[simp] theorem State.markUsed_surfaces (s : State) (v : Fin 32) : (s.markUsed v).surfaces = s.surfaces := rfl
@[simp] theorem State.markUsed_samples (s : State) (v : Fin 32) : (s.markUsed v).samples = s.samples := rfl
@[simp] theorem State.markUsed_log (s : State) (v : Fin 32) : (s.markUsed v).log = s.log := rfl
@[simp] theorem State.markUsed_cfg (s : State) (v : Fin 32) : (s.markUsed v).cfg = s.cfg := rfl
@[simp] theorem State.markUsed_pending (s : State) (v : Fin 32) : (s.markUsed v).pending = s.pending := rfl
@[simp] theorem State.markUsed_answers (s : State) (v : Fin 32) : (s.markUsed v).answers = s.answers := rfl
@[simp] theorem State.markUsed_asked (s : State) (v : Fin 32) : (s.markUsed v).asked = s.asked := rfl
@[simp] theorem State.markUsed_reads (s : State) (v : Fin 32) : (s.markUsed v).reads = s.reads := rfl
@[simp] theorem State.markUsed_seen (s : State) (v : Fin 32) : (s.markUsed v).seen = s.seen := rfl

/-! ### readyPool -/

@[simp] theorem State.readyPool_cmd (s : State) (cap : Nat) (m : Word) : (s.readyPool cap m).cmd = s.cmd := rfl
@[simp] theorem State.readyPool_status (s : State) (cap : Nat) (m : Word) : (s.readyPool cap m).status = s.status := rfl
@[simp] theorem State.readyPool_result (s : State) (cap : Nat) (m : Word) : (s.readyPool cap m).result = s.result := rfl
@[simp] theorem State.readyPool_fault (s : State) (cap : Nat) (m : Word) : (s.readyPool cap m).fault = s.fault := rfl
@[simp] theorem State.readyPool_faultCmd (s : State) (cap : Nat) (m : Word) : (s.readyPool cap m).faultCmd = s.faultCmd := rfl
@[simp] theorem State.readyPool_args (s : State) (cap : Nat) (m : Word) : (s.readyPool cap m).args = s.args := rfl
@[simp] theorem State.readyPool_poolState (s : State) (cap : Nat) (m : Word) : (s.readyPool cap m).poolState = .ready := rfl
@[simp] theorem State.readyPool_capacity (s : State) (cap : Nat) (m : Word) : (s.readyPool cap m).capacity = BitVec.ofNat 6 cap := rfl
@[simp] theorem State.readyPool_freeMask (s : State) (cap : Nat) (m : Word) : (s.readyPool cap m).freeMask = m &&& BitVec.ofNat 32 (2 ^ cap - 1) := rfl
@[simp] theorem State.readyPool_availMask (s : State) (cap : Nat) (m : Word) : (s.readyPool cap m).availMask = m &&& BitVec.ofNat 32 (2 ^ cap - 1) := rfl
@[simp] theorem State.readyPool_voices (s : State) (cap : Nat) (m : Word) : (s.readyPool cap m).voices = Vector.replicate 32 Voice.initial := rfl
@[simp] theorem State.readyPool_surfaces (s : State) (cap : Nat) (m : Word) : (s.readyPool cap m).surfaces = s.surfaces := rfl
@[simp] theorem State.readyPool_samples (s : State) (cap : Nat) (m : Word) : (s.readyPool cap m).samples = s.samples := rfl
@[simp] theorem State.readyPool_log (s : State) (cap : Nat) (m : Word) : (s.readyPool cap m).log = s.log := rfl
@[simp] theorem State.readyPool_cfg (s : State) (cap : Nat) (m : Word) : (s.readyPool cap m).cfg = s.cfg := rfl
@[simp] theorem State.readyPool_pending (s : State) (cap : Nat) (m : Word) : (s.readyPool cap m).pending = s.pending := rfl
@[simp] theorem State.readyPool_answers (s : State) (cap : Nat) (m : Word) : (s.readyPool cap m).answers = s.answers := rfl
@[simp] theorem State.readyPool_asked (s : State) (cap : Nat) (m : Word) : (s.readyPool cap m).asked = s.asked := rfl
@[simp] theorem State.readyPool_reads (s : State) (cap : Nat) (m : Word) : (s.readyPool cap m).reads = s.reads := rfl
@[simp] theorem State.readyPool_seen (s : State) (cap : Nat) (m : Word) : (s.readyPool cap m).seen = s.seen := rfl

/-! ### raiseFault -/

@[simp] theorem State.raiseFault_cmd (s : State) (c : FaultCode) : (s.raiseFault c).cmd = s.cmd := by
  unfold State.raiseFault; split <;> rfl
@[simp] theorem State.raiseFault_status (s : State) (c : FaultCode) : (s.raiseFault c).status = .fault c := by
  unfold State.raiseFault; split <;> rfl
@[simp] theorem State.raiseFault_result (s : State) (c : FaultCode) : (s.raiseFault c).result = s.result := by
  unfold State.raiseFault; split <;> rfl
@[simp] theorem State.raiseFault_fault (s : State) (c : FaultCode) :
    (s.raiseFault c).fault = some (s.fault.getD c) := by
  unfold State.raiseFault; split <;> simp_all
@[simp] theorem State.raiseFault_faultCmd (s : State) (c : FaultCode) :
    (s.raiseFault c).faultCmd = if s.fault = none then s.cmd else s.faultCmd := by
  unfold State.raiseFault; split <;> simp_all
@[simp] theorem State.raiseFault_args (s : State) (c : FaultCode) : (s.raiseFault c).args = s.args := by
  unfold State.raiseFault; split <;> rfl
@[simp] theorem State.raiseFault_poolState (s : State) (c : FaultCode) : (s.raiseFault c).poolState = s.poolState := by
  unfold State.raiseFault; split <;> rfl
@[simp] theorem State.raiseFault_capacity (s : State) (c : FaultCode) : (s.raiseFault c).capacity = s.capacity := by
  unfold State.raiseFault; split <;> rfl
@[simp] theorem State.raiseFault_freeMask (s : State) (c : FaultCode) : (s.raiseFault c).freeMask = s.freeMask := by
  unfold State.raiseFault; split <;> rfl
@[simp] theorem State.raiseFault_availMask (s : State) (c : FaultCode) : (s.raiseFault c).availMask = s.availMask := by
  unfold State.raiseFault; split <;> rfl
@[simp] theorem State.raiseFault_voices (s : State) (c : FaultCode) : (s.raiseFault c).voices = s.voices := by
  unfold State.raiseFault; split <;> rfl
@[simp] theorem State.raiseFault_surfaces (s : State) (c : FaultCode) : (s.raiseFault c).surfaces = s.surfaces := by
  unfold State.raiseFault; split <;> rfl
@[simp] theorem State.raiseFault_samples (s : State) (c : FaultCode) : (s.raiseFault c).samples = s.samples := by
  unfold State.raiseFault; split <;> rfl
@[simp] theorem State.raiseFault_log (s : State) (c : FaultCode) : (s.raiseFault c).log = s.log := by
  unfold State.raiseFault; split <;> rfl
@[simp] theorem State.raiseFault_cfg (s : State) (c : FaultCode) : (s.raiseFault c).cfg = s.cfg := by
  unfold State.raiseFault; split <;> rfl
@[simp] theorem State.raiseFault_pending (s : State) (c : FaultCode) : (s.raiseFault c).pending = s.pending := by
  unfold State.raiseFault; split <;> rfl
@[simp] theorem State.raiseFault_answers (s : State) (c : FaultCode) : (s.raiseFault c).answers = s.answers := by
  unfold State.raiseFault; split <;> rfl
@[simp] theorem State.raiseFault_asked (s : State) (c : FaultCode) : (s.raiseFault c).asked = s.asked := by
  unfold State.raiseFault; split <;> rfl
@[simp] theorem State.raiseFault_reads (s : State) (c : FaultCode) : (s.raiseFault c).reads = s.reads := by
  unfold State.raiseFault; split <;> rfl
@[simp] theorem State.raiseFault_seen (s : State) (c : FaultCode) : (s.raiseFault c).seen = s.seen := by
  unfold State.raiseFault; split <;> rfl

end Sys2Proof.Machine
end

