-- ==== Sys2Proof/Laws/Table.lean ====
section
/-! SUPPORT. What the table and memory operations do: read after write, and that each keeps the canonical form. -/

namespace Sys2Proof.Machine

variable {α : Type}

/-! ### Read after write -/

@[simp] theorem Table.find_nil (a : Nat) : Table.find ([] : Table α) a = none := rfl

theorem Table.find_insert (t : Table α) (a b : Nat) (x : α) :
    Table.find (Table.insert t a x) b = if b = a then some x else Table.find t b := by
  induction t with
  | nil => simp [Table.insert, Table.find]
  | cons e t ih =>
    by_cases h1 : a < e.1
    · simp [Table.insert, Table.find, h1]
    · by_cases h2 : a = e.1
      · subst h2
        by_cases hb : b = e.1 <;> simp [Table.insert, Table.find, hb]
      · simp only [Table.insert, h1, h2, if_false, Table.find, ih]
        by_cases hb : b = e.1
        · simp [hb, Ne.symm h2]
        · simp [hb]

@[simp] theorem Table.find_insert_self (t : Table α) (a : Nat) (x : α) : Table.find (Table.insert t a x) a = some x := by
  simp [Table.find_insert]

theorem Table.find_insert_ne (t : Table α) {a b : Nat} (x : α) (h : b ≠ a) :
    Table.find (Table.insert t a x) b = Table.find t b := by
  simp [Table.find_insert, h]

theorem Table.find_erase (t : Table α) (a b : Nat) :
    Table.find (Table.erase t a) b = if b = a then none else Table.find t b := by
  induction t with
  | nil => simp [Table.erase]
  | cons e t ih =>
    by_cases h2 : a = e.1
    · subst h2
      by_cases hb : b = e.1
      · subst hb; simpa [Table.erase] using ih
      · simpa [Table.erase, Table.find, hb] using ih
    · by_cases hb : b = e.1
      · simp [Table.erase, Table.find, h2, hb, Ne.symm h2]
      · simp [Table.erase, Table.find, h2, hb, ih]

@[simp] theorem Table.find_erase_self (t : Table α) (a : Nat) : Table.find (Table.erase t a) a = none := by
  simp [Table.find_erase]

theorem Table.find_erase_ne (t : Table α) {a b : Nat} (h : b ≠ a) :
    Table.find (Table.erase t a) b = Table.find t b := by
  simp [Table.find_erase, h]

@[simp] theorem Memory.read_nil (a : Nat) : Memory.read [] a = 0 := rfl

/-- Read after write: the written address reads as the value written, every other address as before. -/
theorem Memory.read_write (m : Memory) (a b : Nat) (v : Byte) :
    Memory.read (Memory.write m a v) b = if b = a then v else Memory.read m b := by
  by_cases hv : v = 0
  · subst hv
    by_cases hb : b = a <;> simp [Memory.read, Memory.write, Table.find_erase, hb]
  · rw [Memory.write, if_neg hv]
    by_cases hb : b = a <;> simp [Memory.read, Table.find_insert, hb]

@[simp] theorem Memory.read_write_self (m : Memory) (a : Nat) (v : Byte) : Memory.read (Memory.write m a v) a = v := by
  simp [Memory.read_write]

theorem Memory.read_write_ne (m : Memory) {a b : Nat} (v : Byte) (h : b ≠ a) :
    Memory.read (Memory.write m a v) b = Memory.read m b := by
  simp [Memory.read_write, h]

/-! ### Which entries there are -/

theorem Table.mem_insert {t : Table α} {a : Nat} {x : α} {e : Nat × α} (h : e ∈ Table.insert t a x) :
    e = (a, x) ∨ e ∈ t := by
  induction t with
  | nil => simpa [Table.insert] using h
  | cons d t ih =>
    by_cases h1 : a < d.1
    · simpa [Table.insert, h1] using h
    · by_cases h2 : a = d.1
      · rw [Table.insert, if_neg h1, if_pos h2] at h
        rcases List.mem_cons.mp h with h | h
        · exact .inl h
        · exact .inr (List.mem_cons_of_mem _ h)
      · rw [Table.insert, if_neg h1, if_neg h2] at h
        rcases List.mem_cons.mp h with h | h
        · exact .inr (h ▸ List.mem_cons_self)
        · exact (ih h).imp_right (List.mem_cons_of_mem _)

theorem Table.erase_sublist (t : Table α) (a : Nat) : (Table.erase t a).Sublist t := by
  induction t with
  | nil => exact List.Sublist.refl _
  | cons d t ih =>
    by_cases h : a = d.1
    · simpa [Table.erase, h] using (h ▸ ih).cons d
    · simpa [Table.erase, h] using ih.cons_cons d

theorem Table.mem_erase {t : Table α} {a : Nat} {e : Nat × α} (h : e ∈ Table.erase t a) : e ∈ t :=
  (Table.erase_sublist t a).subset h

theorem Table.find_mem {t : Table α} {a : Nat} {x : α} (h : Table.find t a = some x) : (a, x) ∈ t := by
  induction t with
  | nil => simp at h
  | cons d t ih =>
    by_cases hd : a = d.1
    · simp only [Table.find, hd, if_true, Option.some.injEq] at h
      exact List.mem_cons.mpr (.inl (Prod.ext hd h.symm))
    · simp only [Table.find, hd, if_false] at h
      exact List.mem_cons_of_mem _ (ih h)

theorem Memory.mem_write {m : Memory} {a : Nat} {v : Byte} {c : Host.Cell} (h : c ∈ Memory.write m a v) :
    (c = (a, v) ∧ v ≠ 0) ∨ c ∈ m := by
  by_cases hv : v = 0
  · rw [Memory.write, if_pos hv] at h
    exact .inr (Table.mem_erase h)
  · rw [Memory.write, if_neg hv] at h
    exact (Table.mem_insert h).imp_left fun e => ⟨e, hv⟩

/-! ### The canonical form is kept -/

theorem Table.rising_insert {t : Table α} (h : Table.rising t) (a : Nat) (x : α) : Table.rising (Table.insert t a x) := by
  induction t with
  | nil => exact List.pairwise_singleton _ _
  | cons d t ih =>
    have hd := List.pairwise_cons.mp h
    by_cases h1 : a < d.1
    · rw [Table.insert, if_pos h1]
      refine List.pairwise_cons.mpr ⟨?_, h⟩
      intro b hb
      rcases List.mem_cons.mp hb with rfl | hb
      · exact h1
      · exact Nat.lt_trans h1 (hd.1 b hb)
    · by_cases h2 : a = d.1
      · subst h2
        rw [Table.insert, if_neg h1, if_pos rfl]
        exact List.pairwise_cons.mpr hd
      · rw [Table.insert, if_neg h1, if_neg h2]
        refine List.pairwise_cons.mpr ⟨?_, ih hd.2⟩
        intro b hb
        obtain ⟨e, he, rfl⟩ := List.mem_map.mp hb
        rcases Table.mem_insert he with rfl | he
        · exact Nat.lt_of_le_of_ne (Nat.le_of_not_lt h1) (Ne.symm h2)
        · exact hd.1 _ (List.mem_map_of_mem he)

theorem Table.rising_erase {t : Table α} (h : Table.rising t) (a : Nat) : Table.rising (Table.erase t a) :=
  List.Pairwise.sublist ((Table.erase_sublist t a).map _) h

/-- Every write keeps the canonical form of a buffer. -/
theorem Memory.wf_write {m : Memory} (h : Memory.wf m) (a : Nat) (v : Byte) : Memory.wf (Memory.write m a v) := by
  refine ⟨?_, fun c hc => ?_⟩
  · unfold Memory.write
    split
    · exact Table.rising_erase h.1 a
    · exact Table.rising_insert h.1 a v
  · rcases Memory.mem_write hc with ⟨rfl, hv⟩ | hc
    · exact hv
    · exact h.2 c hc

theorem Memory.within_write {size : Nat} {m : Memory} (h : Memory.within size m) {a : Nat} (ha : a < size) (v : Byte) :
    Memory.within size (Memory.write m a v) := by
  intro c hc
  rcases Memory.mem_write hc with ⟨rfl, -⟩ | hc
  · exact ha
  · exact h c hc

theorem Memory.wf_nil : Memory.wf [] := ⟨List.Pairwise.nil, fun _ h => absurd h List.not_mem_nil⟩

/-- A new buffer is canonical, whatever the oracle draws. -/
theorem Memory.wf_ofDraw (size : Nat) (cells : List Host.Cell) : Memory.wf (Memory.ofDraw size cells) := by
  induction cells with
  | nil => exact Memory.wf_nil
  | cons c rest ih =>
    by_cases h : c.1 < size
    · simpa [Memory.ofDraw, h] using Memory.wf_write ih c.1 c.2
    · simpa [Memory.ofDraw, h] using ih

/-- A new buffer has exactly its own addresses. -/
theorem Memory.within_ofDraw (size : Nat) (cells : List Host.Cell) : Memory.within size (Memory.ofDraw size cells) := by
  induction cells with
  | nil => exact fun _ h => absurd h List.not_mem_nil
  | cons c rest ih =>
    by_cases h : c.1 < size
    · simpa [Memory.ofDraw, h] using Memory.within_write ih h c.2
    · simpa [Memory.ofDraw, h] using ih

/-- A new buffer holds what the oracle drew: of the cells that name an address, the first. -/
theorem Memory.read_ofDraw (size : Nat) (cells : List Host.Cell) {a : Nat} (ha : a < size) :
    Memory.read (Memory.ofDraw size cells) a = ((cells.find? (fun c => c.1 = a)).map Prod.snd).getD 0 := by
  induction cells with
  | nil => simp [Memory.ofDraw]
  | cons c rest ih =>
    by_cases hc : c.1 = a
    · subst hc
      simp [Memory.ofDraw, ha]
    · by_cases h : c.1 < size
      · simp [Memory.ofDraw, h, Memory.read_write, Ne.symm hc, hc, ih]
      · simp [Memory.ofDraw, h, hc, ih]

end Sys2Proof.Machine
end

