-- ==== Sys2Proof/Laws/Ops.lean ====
section
/-! SUPPORT. One lemma for each shared operation that says what it can do, and the one inversion lemma of `exec`. -/

namespace Sys2Proof.Machine

/-! ### Checks -/

@[simp] theorem firstFault_nil : firstFault [] = none := rfl

@[simp] theorem firstFault_cons (c : Check) (l : List Check) :
    firstFault (c :: l) = if c.1 then firstFault l else some c.2 := rfl

theorem firstFault_append (l m : List Check) :
    firstFault (l ++ m) = match firstFault l with
      | some c => some c
      | none => firstFault m := by
  induction l with
  | nil => rfl
  | cons c l ih => cases h : c.1 <;> simp [h, ih]

/-- Every check passes exactly when no fault is first. -/
theorem firstFault_eq_none {l : List Check} : firstFault l = none ↔ ∀ c ∈ l, c.1 = true := by
  induction l with
  | nil => simp
  | cons c l ih => cases h : c.1 <;> simp [h, ih]

/-- The fault that is first is that of some check that fails. -/
theorem firstFault_mem {l : List Check} {c : FaultCode} (h : firstFault l = some c) : (false, c) ∈ l := by
  induction l with
  | nil => simp at h
  | cons d l ih =>
    obtain ⟨b, e⟩ := d
    cases b
    · simp at h; simp [h]
    · simp at h; simp [ih h]

theorem State.guarded_pass {s : State} {l : List Check} (f : State → State) (h : firstFault l = none) :
    s.guarded l f = f s := by simp [State.guarded, h]

theorem State.guarded_fail {s : State} {l : List Check} {c : FaultCode} (f : State → State)
    (h : firstFault l = some c) : s.guarded l f = s.raiseFault c := by simp [State.guarded, h]

theorem command_pass {s : State} {l : List Check} (f : State → State) (h : firstFault l = none) :
    command s l f = .next (f s) := by rw [command, State.guarded_pass f h]

theorem command_fail {s : State} {l : List Check} {c : FaultCode} (f : State → State) (h : firstFault l = some c) :
    command s l f = .next (s.raiseFault c) := by rw [command, State.guarded_fail f h]

/-! ### The inversion of exec -/

/-- The checks of a command, as its meaning lists them. -/
def checksOf (s : State) : Instr → List Check
  | .nop => []
  | .screate => [dimCheck s 0, dimCheck s 1]
  | .sdestroy => [surf0Check s 0]
  | .sclear => [surfCheck s 0, byteCheck s 1]
  | .sgetpix => [surfCheck s 0, c16Check s 1, c16Check s 2]
  | .sputpix => [surfCheck s 0, c16Check s 1, c16Check s 2, byteCheck s 3]
  | .sinfo => [surfCheck s 0]
  | .blitMasked => [surfCheck s 0, surfCheck s 1, c16Check s 2, c16Check s 3, c16Check s 4, c16Check s 5, c16Check s 6,
      c16Check s 7]
  | .blitStretch => [surfCheck s 0, surfCheck s 1, c16Check s 2, c16Check s 3, c16Check s 4, c16Check s 5, c16Check s 6,
      c16Check s 7, c16Check s 8, c16Check s 9, (decide (s.argN 8 ≠ 0 ∧ s.argN 9 ≠ 0), .zeroDim)]
  | .smpcreate => [bitsCheck s 0, channelsCheck s 1]
  | .smpdestroy => [smp0Check s 0, (decide (s.argN 0 = 0) || !s.sampleBusy (s.argN 0), .sampleBusy)]
  | .smpwrite => [smpCheck s 0, byteCheck s 2, offsetCheck s]
  | .smpread => [smpCheck s 0, offsetCheck s]
  | .smpinfo => [smpCheck s 0, fieldCheck s 1]
  | .pinit => [(decide (s.poolState ≠ .ready), .badState), (decide (s.poolState ≠ .failed), .poolFailed), capCheck s 0]
  | .valloc => poolChecks s ++ [smp0Check s 0]
  | .vfree | .vplaymode | .vstart | .vstop | .vsetpos | .vsetfreq | .vsweepfreq => voiceChecks s
  | .vsetvol => voiceChecks s ++ [byteCheck s 1]
  | .vsetpan => voiceChecks s ++ [byteCheck s 1]
  | .vrampvol => voiceChecks s ++ [byteCheck s 2]

/-- What a command does once its checks pass. -/
def effectOf (s : State) : Instr → State
  | .nop => s.complete .ok 0
  | .screate =>
    match s.allocSurface with
    | none => s.asking.complete .allocFail 0
    | some r =>
      (s.asking.createSurface r (BitVec.ofNat 16 (s.argN 0)) (BitVec.ofNat 16 (s.argN 1))
        s.nextAnswer.contents).complete .ok (BitVec.ofNat 32 r)
  | .sdestroy => if s.argN 0 = 0 then s.complete .ok 0 else (s.dropSurface (s.argN 0)).complete .ok 0
  | .sclear => (s.fillSurface (s.argN 0) (BitVec.ofNat 8 (s.argN 1))).complete .ok 0
  | .sgetpix => s.complete .ok
      ((s.pixel (s.argN 0) (s.argN 1 % s.width (s.argN 0)) (s.argN 2 % s.height (s.argN 0))).setWidth 32)
  | .sputpix => (s.setPixel (s.argN 0) (s.argN 1 % s.width (s.argN 0)) (s.argN 2 % s.height (s.argN 0))
      (BitVec.ofNat 8 (s.argN 3))).complete .ok 0
  | .sinfo => s.complete .ok
      (BitVec.ofNat 32 (s.width (s.argN 0)) ||| (BitVec.ofNat 32 (s.height (s.argN 0)) <<< 16))
  | .blitMasked => (s.blit (s.argN 0) (s.argN 1)
      (maskedCoord (s.argN 2) (s.width (s.argN 0))) (maskedCoord (s.argN 3) (s.height (s.argN 0)))
      (s.argN 4) (s.argN 5) (s.argN 6) (s.argN 7)).complete .ok 0
  | .blitStretch => (s.blit (s.argN 0) (s.argN 1)
      (stretchCoord (s.argN 2) (s.argN 4) (s.argN 8) (s.width (s.argN 0)))
      (stretchCoord (s.argN 3) (s.argN 5) (s.argN 9) (s.height (s.argN 0)))
      (s.argN 6) (s.argN 7) (s.argN 8) (s.argN 9)).complete .ok 0
  | .smpcreate =>
    match s.allocSample with
    | none => s.asking.complete .allocFail 0
    | some r =>
      (s.asking.putSample r
        (newSample (depthOf (s.argN 0)) (channelsOf (s.argN 1)) (s.arg 2) (s.arg 3) s.nextAnswer.contents)).complete
          .ok (BitVec.ofNat 32 r)
  | .smpdestroy => if s.argN 0 = 0 then s.complete .ok 0 else (s.dropSample (s.argN 0)).complete .ok 0
  | .smpwrite => (s.setSampleByte (s.argN 0) (s.argN 1) (BitVec.ofNat 8 (s.argN 2))).complete .ok 0
  | .smpread => s.complete .ok ((s.sampleByte (s.argN 0) (s.argN 1)).setWidth 32)
  | .smpinfo => s.complete .ok (s.sampleField (s.argN 0) (s.argN 1))
  | .pinit => s.initPool (s.argN 0)
  | .valloc =>
    match s.lowestFree with
    | none => s.complete .noneFree 0xFFFFFFFF
    | some i =>
      ((s.markUsed (voiceSlot i)).setVoice (voiceSlot i)
        { s.voice (voiceSlot i) with
          playing := false
          position := 0
          rate := s.sampleRate (s.argN 0)
          sample := s.arg 0 }).complete .ok (BitVec.ofNat 32 i)
  | .vfree => (((s.emit (.silence s.voiceArg)).setVoice s.voiceArg
      { s.voice s.voiceArg with playing := false }).markFree s.voiceArg).complete .ok 0
  | .vplaymode => ((s.setVoice s.voiceArg { s.voice s.voiceArg with loop := (s.arg 1).getLsbD 0 }).emit
      (.setLoop s.voiceArg ((s.arg 1).getLsbD 0))).complete .ok 0
  | .vstart => (s.startVoice s.voiceArg).complete .ok 0
  | .vstop => ((s.emit (.silence s.voiceArg)).setVoice s.voiceArg
      { s.voice s.voiceArg with playing := false }).complete .ok 0
  | .vsetpos => (s.setPosition s.voiceArg (s.arg 1)).complete .ok 0
  | .vsetfreq => (s.setRate s.voiceArg (s.arg 1)).complete .ok 0
  | .vsetvol => (s.setVol s.voiceArg (BitVec.ofNat 8 (s.argN 1))).complete .ok 0
  | .vsetpan => (s.setPan s.voiceArg (BitVec.ofNat 8 (s.argN 1))).complete .ok 0
  | .vsweepfreq => (s.setRate s.voiceArg (s.arg 2)).complete .ok 0
  | .vrampvol => (s.setVol s.voiceArg (BitVec.ofNat 8 (s.argN 2))).complete .ok 0

/-- Every command is a list of checks and an effect (R63). -/
theorem exec_eq_command (i : Instr) (s : State) : exec i s = command s (checksOf s i) fun s => effectOf s i := by
  cases i <;> rfl

/-- Everything a command can do: raise the fault of its first failing check, or, all passing, have its effect. -/
theorem exec_cases {i : Instr} {s t : State} (h : exec i s = .next t) :
    (∃ c, firstFault (checksOf s i) = some c ∧ t = s.raiseFault c) ∨
      (firstFault (checksOf s i) = none ∧ t = effectOf s i) := by
  rw [exec_eq_command] at h
  cases hf : firstFault (checksOf s i) with
  | some c => rw [command_fail _ hf] at h; cases h; exact .inl ⟨c, rfl, rfl⟩
  | none => rw [command_pass _ hf] at h; cases h; exact .inr ⟨rfl, rfl⟩

theorem exec_pass {i : Instr} {s : State} (h : firstFault (checksOf s i) = none) :
    exec i s = .next (effectOf s i) := by rw [exec_eq_command, command_pass _ h]

theorem exec_fail {i : Instr} {s : State} {c : FaultCode} (h : firstFault (checksOf s i) = some c) :
    exec i s = .next (s.raiseFault c) := by rw [exec_eq_command, command_fail _ h]

/-! ### Loops -/

/-- What holds before a loop and is kept by each round holds after it. -/
theorem forUpto_keeps {σ : Type} {P : σ → Prop} {n : Nat} {f : Nat → σ → σ} {s : σ} (hs : P s)
    (hf : ∀ i s, i < n → P s → P (f i s)) : P (forUpto n f s) := by
  induction n with
  | zero => exact hs
  | succ n ih => exact hf n _ (Nat.lt_succ_self n) (ih fun i s hi => hf i s (Nat.lt_succ_of_lt hi))

/-- A map that commutes with each round commutes with the loop. -/
theorem forUpto_map {σ τ : Type} {g : σ → τ} {n : Nat} {f : Nat → σ → σ} {f' : Nat → τ → τ}
    (hf : ∀ i s, g (f i s) = f' i (g s)) (s : σ) : g (forUpto n f s) = forUpto n f' (g s) := by
  induction n with
  | zero => rfl
  | succ n ih => rw [forUpto, forUpto, hf, ih]

/-- Two loops whose rounds agree below the bound agree. -/
theorem forUpto_congr {σ : Type} {n : Nat} {f f' : Nat → σ → σ} (hf : ∀ i s, i < n → f i s = f' i s) (s : σ) :
    forUpto n f s = forUpto n f' s := by
  induction n with
  | zero => rfl
  | succ n ih =>
    rw [forUpto, forUpto, ih fun i s hi => hf i s (Nat.lt_succ_of_lt hi), hf n _ (Nat.lt_succ_self n)]

/-- The loop is the fold over 0, 1, ..., n-1. -/
theorem forUpto_eq_foldl {σ : Type} (n : Nat) (f : Nat → σ → σ) (s : σ) :
    forUpto n f s = (List.range n).foldl (fun s i => f i s) s := by
  induction n with
  | zero => rfl
  | succ n ih => rw [List.range_succ, List.foldl_append, ← ih]; rfl

/-! ### Surfaces -/

@[simp] theorem State.surface?_zero (s : State) : s.surface? 0 = none := rfl

theorem State.liveSurface_iff {s : State} {h : Nat} : s.liveSurface h = true ↔ ∃ S, s.surface? h = some S := by
  rw [State.liveSurface, Option.isSome_iff_exists]

theorem State.liveSurface_false {s : State} {h : Nat} : s.liveSurface h = false ↔ s.surface? h = none := by
  rw [State.liveSurface, Option.isSome_eq_false_iff, Option.isNone_iff_eq_none]

theorem State.surface?_ne_zero {s : State} {h : Nat} {S : Surface} (hS : s.surface? h = some S) : h ≠ 0 := by
  rintro rfl; simp at hS

theorem State.surface?_mem {s : State} {h : Nat} {S : Surface} (hS : s.surface? h = some S) : (h, S) ∈ s.surfaces := by
  unfold State.surface? at hS
  split at hS
  · cases hS
  · exact Table.find_mem hS

theorem State.surface?_congr {s t : State} (h : t.surfaces = s.surfaces) (g : Nat) : t.surface? g = s.surface? g := by
  rw [State.surface?, State.surface?, h]

theorem State.surface?_putSurface (s : State) {h : Nat} (h0 : h ≠ 0) (S : Surface) (g : Nat) :
    (s.putSurface h S).surface? g = if g = h then some S else s.surface? g := by
  by_cases hg : g = h
  · subst hg; simp [State.surface?, h0]
  · simp [State.surface?, hg, Table.find_insert]

theorem State.surface?_dropSurface (s : State) (h g : Nat) :
    (s.dropSurface h).surface? g = if g = h then none else s.surface? g := by
  by_cases hg : g = h
  · subst hg; simp [State.surface?]
  · simp [State.surface?, hg, Table.find_erase]

theorem State.pixel_eq {s : State} {h : Nat} {S : Surface} (hS : s.surface? h = some S) (x y : Nat) :
    s.pixel h x y = Memory.read S.pix (y * S.w.toNat + x) := by simp [State.pixel, hS, pixelAddr]

theorem State.width_eq {s : State} {h : Nat} {S : Surface} (hS : s.surface? h = some S) : s.width h = S.w.toNat := by
  simp [State.width, hS]

theorem State.height_eq {s : State} {h : Nat} {S : Surface} (hS : s.surface? h = some S) : s.height h = S.h.toNat := by
  simp [State.height, hS]

theorem State.setPixel_eq {s : State} {h : Nat} {S : Surface} (hS : s.surface? h = some S) (x y : Nat) (v : Byte) :
    s.setPixel h x y v = s.putSurface h { S with pix := Memory.write S.pix (y * S.w.toNat + x) v } := by
  simp [State.setPixel, hS, pixelAddr]

/-- `t` is `s` but for the bytes of surface `h`: every other field and every other surface is as before, and surface `h`
keeps its dimensions. -/
structure Painted (h : Nat) (s t : State) : Prop where
  rest : t = { s with surfaces := t.surfaces }
  others : ∀ g, g ≠ h → t.surface? g = s.surface? g
  dead : s.surface? h = none → t.surface? h = none
  live : ∀ S, s.surface? h = some S → ∃ pix, t.surface? h = some { S with pix := pix }

theorem Painted.refl (h : Nat) (s : State) : Painted h s s :=
  ⟨rfl, fun _ _ => rfl, id, fun S hS => ⟨S.pix, hS⟩⟩

theorem Painted.trans {h : Nat} {s t u : State} (a : Painted h s t) (b : Painted h t u) : Painted h s u where
  rest := by rw [b.rest, a.rest]
  others g hg := (b.others g hg).trans (a.others g hg)
  dead hs := b.dead (a.dead hs)
  live S hS := by
    obtain ⟨p, hp⟩ := a.live S hS
    obtain ⟨q, hq⟩ := b.live _ hp
    exact ⟨q, hq⟩

theorem Painted.width {h : Nat} {s t : State} (a : Painted h s t) (g : Nat) : t.width g = s.width g := by
  by_cases hg : g = h
  · subst hg
    cases hs : s.surface? g with
    | none => simp [State.width, hs, a.dead hs]
    | some S =>
      obtain ⟨p, hp⟩ := a.live S hs
      simp [State.width, hs, hp]
  · simp [State.width, a.others g hg]

theorem Painted.height {h : Nat} {s t : State} (a : Painted h s t) (g : Nat) : t.height g = s.height g := by
  by_cases hg : g = h
  · subst hg
    cases hs : s.surface? g with
    | none => simp [State.height, hs, a.dead hs]
    | some S =>
      obtain ⟨p, hp⟩ := a.live S hs
      simp [State.height, hs, hp]
  · simp [State.height, a.others g hg]

theorem Painted.liveSurface {h : Nat} {s t : State} (a : Painted h s t) (g : Nat) :
    t.liveSurface g = s.liveSurface g := by
  by_cases hg : g = h
  · subst hg
    cases hs : s.surface? g with
    | none => simp [State.liveSurface, hs, a.dead hs]
    | some S =>
      obtain ⟨p, hp⟩ := a.live S hs
      simp [State.liveSurface, hs, hp]
  · simp [State.liveSurface, a.others g hg]

theorem Painted.pixel_other {h : Nat} {s t : State} (a : Painted h s t) {g : Nat} (hg : g ≠ h) (x y : Nat) :
    t.pixel g x y = s.pixel g x y := by simp [State.pixel, a.others g hg]

theorem setPixel_painted (s : State) (h x y : Nat) (v : Byte) : Painted h s (s.setPixel h x y v) := by
  cases hs : s.surface? h with
  | none => simpa [State.setPixel, hs] using Painted.refl h s
  | some S =>
    rw [State.setPixel_eq hs]
    have h0 := State.surface?_ne_zero hs
    refine ⟨rfl, fun g hg => ?_, fun hn => ?_, fun S' hS' => ?_⟩
    · simp [State.surface?_putSurface s h0, hg]
    · simp [hs] at hn
    · cases hs.symm.trans hS'
      exact ⟨Memory.write S.pix (y * S.w.toNat + x) v, by simp [State.surface?_putSurface s h0]⟩

theorem copyPixel_painted (s : State) (src sx sy dst dx dy : Nat) :
    Painted dst s (s.copyPixel src sx sy dst dx dy) := by
  unfold State.copyPixel
  split
  · exact Painted.refl _ _
  · exact setPixel_painted _ _ _ _ _

theorem forUpto_painted {h n : Nat} {f : Nat → State → State} (hf : ∀ i s, Painted h s (f i s)) (s : State) :
    Painted h s (forUpto n f s) :=
  forUpto_keeps (P := Painted h s) (Painted.refl h s) fun i t _ ht => ht.trans (hf i t)

/-- A blit changes bytes of its destination surface only (R76 (d)). -/
theorem blit_painted (s : State) (src dst : Nat) (sx sy : Nat → Nat) (dstX dstY w h : Nat) :
    Painted dst s (s.blit src dst sx sy dstX dstY w h) :=
  forUpto_painted (fun _ s => forUpto_painted (fun _ s => copyPixel_painted s _ _ _ _ _ _) s) s

/-- SCLEAR changes bytes of its surface only. -/
theorem fillSurface_painted (s : State) (h : Nat) (c : Byte) : Painted h s (s.fillSurface h c) :=
  forUpto_painted (fun _ s => forUpto_painted (fun _ s => setPixel_painted s _ _ _ _) s) s

/-! ### Samples -/

@[simp] theorem State.sample?_zero (s : State) : s.sample? 0 = none := rfl

theorem State.liveSample_iff {s : State} {m : Nat} : s.liveSample m = true ↔ ∃ M, s.sample? m = some M := by
  rw [State.liveSample, Option.isSome_iff_exists]

theorem State.liveSample_false {s : State} {m : Nat} : s.liveSample m = false ↔ s.sample? m = none := by
  rw [State.liveSample, Option.isSome_eq_false_iff, Option.isNone_iff_eq_none]

theorem State.sample?_ne_zero {s : State} {m : Nat} {M : Sample} (hM : s.sample? m = some M) : m ≠ 0 := by
  rintro rfl; simp at hM

theorem State.sample?_mem {s : State} {m : Nat} {M : Sample} (hM : s.sample? m = some M) : (m, M) ∈ s.samples := by
  unfold State.sample? at hM
  split at hM
  · cases hM
  · exact Table.find_mem hM

theorem State.sample?_congr {s t : State} (h : t.samples = s.samples) (g : Nat) : t.sample? g = s.sample? g := by
  rw [State.sample?, State.sample?, h]

theorem State.sample?_putSample (s : State) {m : Nat} (h0 : m ≠ 0) (M : Sample) (g : Nat) :
    (s.putSample m M).sample? g = if g = m then some M else s.sample? g := by
  by_cases hg : g = m
  · subst hg; simp [State.sample?, h0]
  · simp [State.sample?, hg, Table.find_insert]

theorem State.sample?_dropSample (s : State) (m g : Nat) :
    (s.dropSample m).sample? g = if g = m then none else s.sample? g := by
  by_cases hg : g = m
  · subst hg; simp [State.sample?]
  · simp [State.sample?, hg, Table.find_erase]

theorem State.setSampleByte_eq {s : State} {m : Nat} {M : Sample} (hM : s.sample? m = some M) (i : Nat) (v : Byte) :
    s.setSampleByte m i v = s.putSample m { M with data := Memory.write M.data i v } := by
  simp [State.setSampleByte, hM]

/-- What an oracle may answer (R45): a handle of the table that is not live. -/
theorem admittedHandle_some {max : Nat} {live : Nat → Bool} {a : Option Nat} {r : Nat}
    (h : admittedHandle max live a = some r) : 1 ≤ r ∧ r ≤ max ∧ live r = false := by
  unfold admittedHandle at h
  split at h
  · split at h
    · cases h; assumption
    · cases h
  · cases h

/-- The oracle must answer failure when every handle of the table is live (R45). -/
theorem admittedHandle_full {max : Nat} {live : Nat → Bool} (hfull : ∀ h, 1 ≤ h → h ≤ max → live h = true)
    (a : Option Nat) : admittedHandle max live a = none := by
  cases h : admittedHandle max live a with
  | none => rfl
  | some r =>
    obtain ⟨h1, h2, h3⟩ := admittedHandle_some h
    simp [hfull r h1 h2] at h3

/-! ### Voices -/

theorem State.voice_setVoice (s : State) (v u : Fin 32) (V : Voice) :
    (s.setVoice v V).voice u = if u = v then V else s.voice u := by
  by_cases h : u = v
  · subst h; simp [State.voice, State.setVoice]
  · have hn : v.val ≠ u.val := fun e => h (Fin.ext e.symm)
    simp [State.voice, State.setVoice, h, Vector.getElem_set_ne _ _ hn]

theorem voiceSlot_val {n : Nat} (h : n < 32) : (voiceSlot n).val = n := by simp [voiceSlot, Nat.mod_eq_of_lt h]

theorem voiceSlot_eq {n : Nat} {v : Fin 32} (h : v.val = n) : voiceSlot n = v :=
  Fin.ext (by rw [voiceSlot_val (h ▸ v.isLt), h])

/-- A valid voice id is below the number of mask bits. -/
theorem State.validVoice_lt {s : State} {id : Nat} (h : s.validVoice id = true) :
    id < 32 ∧ id < s.capacity.toNat ∧ s.availMask.getLsbD id = true := by
  simp only [State.validVoice, Bool.and_eq_true, decide_eq_true_eq] at h
  exact ⟨BitVec.lt_of_getLsbD h.2, h⟩

/-- `do_start` (R86): it is a no-op, or the voice plays and one PLAY is emitted. -/
theorem startVoice_cases (s : State) (v : Fin 32) :
    s.startVoice v = s ∨
      (s.isFree v = false ∧ s.playable (s.voice v).sample.toNat = true ∧
        ∃ e, s.startVoice v = (s.setVoice v { s.voice v with playing := true }).emit e) := by
  unfold State.startVoice
  cases hf : s.isFree v with
  | true => exact .inl rfl
  | false =>
    cases hm : s.sample? (s.voice v).sample.toNat with
    | none => exact .inl rfl
    | some M =>
      by_cases hz : M.size = 0
      · exact .inl (by simp [hz])
      · exact .inr ⟨rfl, by simp [State.playable, hm, hz], _, by simp [hz]; rfl⟩

/-! ### Memory -/

/-- The memory of the reset state is canonical, whatever the parameters. -/
theorem reset_memoryWf (c : Config) : (State.resetWith c).memoryWf :=
  ⟨List.Pairwise.nil, List.Pairwise.nil, fun _ h => absurd h List.not_mem_nil, fun _ h => absurd h List.not_mem_nil⟩

end Sys2Proof.Machine
end

