-- ==== Sys2Proof/Laws/Effects.lean ====
section
/-! SUPPORT. What the effects of the commands can change, and the inversion lemma of `step`. -/

namespace Sys2Proof.Machine

/-! ### Voice commands -/

/-- `t` is `s` but for voice records, with entries appended to BACKEND_LOG. -/
structure VoiceOnly (s t : State) : Prop where
  rest : t = { s with voices := t.voices, log := t.log }
  log : ∃ new, t.log = s.log ++ new

theorem VoiceOnly.refl (s : State) : VoiceOnly s s := ⟨rfl, [], by simp⟩

theorem VoiceOnly.trans {s t u : State} (a : VoiceOnly s t) (b : VoiceOnly t u) : VoiceOnly s u := by
  refine ⟨by rw [b.rest, a.rest], ?_⟩
  obtain ⟨x, hx⟩ := a.log
  obtain ⟨y, hy⟩ := b.log
  exact ⟨x ++ y, by rw [hy, hx, List.append_assoc]⟩

theorem setVoice_voiceOnly (s : State) (v : Fin 32) (V : Voice) : VoiceOnly s (s.setVoice v V) := ⟨rfl, [], by simp⟩

theorem emit_voiceOnly (s : State) (e : BackendCmd) : VoiceOnly s (s.emit e) := ⟨rfl, [e], rfl⟩

theorem startVoice_voiceOnly (s : State) (v : Fin 32) : VoiceOnly s (s.startVoice v) := by
  rcases startVoice_cases s v with h | ⟨_, _, e, h⟩ <;> rw [h]
  · exact VoiceOnly.refl s
  · exact (setVoice_voiceOnly _ _ _).trans (emit_voiceOnly _ _)

theorem pushVolPan_voiceOnly (s : State) (v : Fin 32) : VoiceOnly s (s.pushVolPan v) := by
  unfold State.pushVolPan
  split
  · exact emit_voiceOnly _ _
  · exact VoiceOnly.refl _

theorem setRate_voiceOnly (s : State) (v : Fin 32) (r : Word) : VoiceOnly s (s.setRate v r) := by
  unfold State.setRate
  split
  · exact (setVoice_voiceOnly _ _ _).trans (startVoice_voiceOnly _ _)
  · exact setVoice_voiceOnly _ _ _

theorem setPosition_voiceOnly (s : State) (v : Fin 32) (p : Word) : VoiceOnly s (s.setPosition v p) := by
  unfold State.setPosition
  split
  · exact (setVoice_voiceOnly _ _ _).trans (startVoice_voiceOnly _ _)
  · exact setVoice_voiceOnly _ _ _

theorem setVol_voiceOnly (s : State) (v : Fin 32) (c : Byte) : VoiceOnly s (s.setVol v c) :=
  (setVoice_voiceOnly _ _ _).trans (pushVolPan_voiceOnly _ _)

theorem setPan_voiceOnly (s : State) (v : Fin 32) (c : Byte) : VoiceOnly s (s.setPan v c) :=
  (setVoice_voiceOnly _ _ _).trans (pushVolPan_voiceOnly _ _)

/-! ### Sample data -/

theorem setSampleByte_rest (s : State) (m i : Nat) (v : Byte) :
    s.setSampleByte m i v = { s with samples := (s.setSampleByte m i v).samples } := by
  unfold State.setSampleByte
  split <;> rfl

/-! ### Every effect -/

/-- An effect ends the command without a fault. -/
theorem effect_status (i : Instr) (s : State) : (effectOf s i).status.isFault = false := by
  cases i <;> simp only [effectOf, State.initPool] <;> (repeat' split) <;> rfl

/-- The fields no effect of a command touches: CMD, the arguments, the fault registers, the parameters, the events to come and
the observations. -/
structure Untouched (s t : State) : Prop where
  cmd : t.cmd = s.cmd
  args : t.args = s.args
  fault : t.fault = s.fault
  faultCmd : t.faultCmd = s.faultCmd
  cfg : t.cfg = s.cfg
  pending : t.pending = s.pending
  reads : t.reads = s.reads
  seen : t.seen = s.seen

theorem VoiceOnly.untouched {s t : State} (h : VoiceOnly s t) : Untouched s t := by
  rw [h.rest]; constructor <;> rfl

theorem Painted.untouched {g : Nat} {s t : State} (h : Painted g s t) : Untouched s t := by
  rw [h.rest]; constructor <;> rfl

theorem Untouched.complete {s t : State} (h : Untouched s t) (st : Status) (r : Word) : Untouched s (t.complete st r) :=
  ⟨h.1, h.2, h.3, h.4, h.5, h.6, h.7, h.8⟩

theorem effect_untouched (i : Instr) (s : State) : Untouched s (effectOf s i) := by
  cases i <;> simp only [effectOf]
  case sclear => exact (fillSurface_painted _ _ _).untouched.complete _ _
  case sputpix => exact (setPixel_painted _ _ _ _ _).untouched.complete _ _
  case blitMasked => exact (blit_painted _ _ _ _ _ _ _ _ _).untouched.complete _ _
  case blitStretch => exact (blit_painted _ _ _ _ _ _ _ _ _).untouched.complete _ _
  case smpwrite => rw [setSampleByte_rest]; constructor <;> rfl
  case vstart => exact (startVoice_voiceOnly _ _).untouched.complete _ _
  case vsetpos => exact (setPosition_voiceOnly _ _ _).untouched.complete _ _
  case vsetfreq => exact (setRate_voiceOnly _ _ _).untouched.complete _ _
  case vsetvol => exact (setVol_voiceOnly _ _ _).untouched.complete _ _
  case vsetpan => exact (setPan_voiceOnly _ _ _).untouched.complete _ _
  case vsweepfreq => exact (setRate_voiceOnly _ _ _).untouched.complete _ _
  case vrampvol => exact (setVol_voiceOnly _ _ _).untouched.complete _ _
  case pinit => unfold State.initPool; (repeat' split) <;> constructor <;> rfl
  all_goals (repeat' split)
  all_goals (constructor <;> rfl)

/-- The pool registers, the voices and the log are left alone by every command that is not the pool's. -/
theorem effect_pool_alone {i : Instr} (s : State) (hn : needsPool i = false) (hp : i ≠ .pinit) :
    (effectOf s i).poolState = s.poolState ∧ (effectOf s i).capacity = s.capacity ∧
      (effectOf s i).freeMask = s.freeMask ∧ (effectOf s i).availMask = s.availMask ∧
      (effectOf s i).voices = s.voices ∧ (effectOf s i).log = s.log := by
  cases i <;> simp only [needsPool, Bool.true_eq_false] at hn <;> simp only [effectOf]
  case sclear => rw [(fillSurface_painted _ _ _).rest]; simp
  case sputpix => rw [(setPixel_painted _ _ _ _ _).rest]; simp
  case blitMasked => rw [(blit_painted _ _ _ _ _ _ _ _ _).rest]; simp
  case blitStretch => rw [(blit_painted _ _ _ _ _ _ _ _ _).rest]; simp
  case smpwrite => rw [setSampleByte_rest]; simp
  case pinit => exact absurd rfl hp
  all_goals (repeat' split)
  all_goals simp [State.createSurface]

/-- The surface table, the sample table and the oracles are left alone by the commands that need the pool. -/
theorem effect_tables_alone {i : Instr} (s : State) (hn : needsPool i = true) :
    (effectOf s i).surfaces = s.surfaces ∧ (effectOf s i).samples = s.samples ∧
      (effectOf s i).answers = s.answers ∧ (effectOf s i).asked = s.asked ∧
      (effectOf s i).poolState = s.poolState ∧ (effectOf s i).capacity = s.capacity ∧
      (effectOf s i).availMask = s.availMask := by
  cases i <;> simp only [needsPool, Bool.false_eq_true] at hn <;> simp only [effectOf]
  case vstart => rw [(startVoice_voiceOnly _ _).rest]; simp
  case vsetpos => rw [(setPosition_voiceOnly _ _ _).rest]; simp
  case vsetfreq => rw [(setRate_voiceOnly _ _ _).rest]; simp
  case vsetvol => rw [(setVol_voiceOnly _ _ _).rest]; simp
  case vsetpan => rw [(setPan_voiceOnly _ _ _).rest]; simp
  case vsweepfreq => rw [(setRate_voiceOnly _ _ _).rest]; simp
  case vrampvol => rw [(setVol_voiceOnly _ _ _).rest]; simp
  all_goals (repeat' split)
  all_goals simp

/-! ### Updates that surface operations do not see -/

/-- A change of the state that neither reads nor writes the surface table. -/
structure SurfaceBlind (g : State → State) : Prop where
  same : ∀ s, (g s).surfaces = s.surfaces
  through : ∀ s T, g { s with surfaces := T } = { g s with surfaces := T }

theorem SurfaceBlind.surface? {g : State → State} (hg : SurfaceBlind g) (s : State) (h : Nat) :
    (g s).surface? h = s.surface? h := State.surface?_congr (hg.same s) h

theorem SurfaceBlind.width {g : State → State} (hg : SurfaceBlind g) (s : State) (h : Nat) :
    (g s).width h = s.width h := by rw [State.width, hg.surface?]; rfl

theorem SurfaceBlind.height {g : State → State} (hg : SurfaceBlind g) (s : State) (h : Nat) :
    (g s).height h = s.height h := by rw [State.height, hg.surface?]; rfl

theorem SurfaceBlind.pixel {g : State → State} (hg : SurfaceBlind g) (s : State) (h x y : Nat) :
    (g s).pixel h x y = s.pixel h x y := by rw [State.pixel, hg.surface?]; rfl

theorem SurfaceBlind.setPixel {g : State → State} (hg : SurfaceBlind g) (s : State) (h x y : Nat) (v : Byte) :
    g (s.setPixel h x y v) = (g s).setPixel h x y v := by
  unfold State.setPixel
  rw [hg.surface?]
  split
  · rw [State.putSurface, hg.through, State.putSurface, hg.same]
  · rfl

theorem SurfaceBlind.copyPixel {g : State → State} (hg : SurfaceBlind g) (s : State) (src sx sy dst dx dy : Nat) :
    g (s.copyPixel src sx sy dst dx dy) = (g s).copyPixel src sx sy dst dx dy := by
  unfold State.copyPixel
  rw [hg.pixel]
  split
  · rfl
  · exact hg.setPixel _ _ _ _ _

theorem SurfaceBlind.blit {g : State → State} (hg : SurfaceBlind g) (s : State) (src dst : Nat) (sx sy : Nat → Nat)
    (dstX dstY w h : Nat) : g (s.blit src dst sx sy dstX dstY w h) = (g s).blit src dst sx sy dstX dstY w h :=
  forUpto_map (fun _ s => forUpto_map (fun _ s => by rw [hg.copyPixel, hg.width, hg.height]) s) s

theorem SurfaceBlind.fillSurface {g : State → State} (hg : SurfaceBlind g) (s : State) (h : Nat) (c : Byte) :
    g (s.fillSurface h c) = (g s).fillSurface h c := by
  unfold State.fillSurface
  rw [hg.height]
  exact forUpto_map (fun _ s => by rw [hg.width]; exact forUpto_map (fun _ s => hg.setPixel _ _ _ _ _) s) s

/-! ### The step -/

/-- Everything a step can do when it answers a next state: wait, read a register, read a pixel, write an argument, run a
command word, or be reset. -/
theorem step_cases {s t : State} (h : step s = .next t) :
    (s.pending = [] ∧ t = s) ∨ ∃ e rest, s.pending = e :: rest ∧
      ((e ≠ .reset ∧ ∃ r, t = { s with pending := rest, reads := r }) ∨
        (e ≠ .reset ∧ ∃ r, t = { s with pending := rest, seen := r }) ∨
        (e ≠ .reset ∧ ∃ a, t = { s with pending := rest, args := a }) ∨
        (∃ off w, e = .bus (.write off 4 w) ∧ regAt s.cfg off = some .cmd ∧
          runCommandWord w { s with pending := rest } = .next t) ∨
        (e = .reset ∧ t = { s with pending := rest }.afterReset)) := by
  unfold step nextEvent at h
  split at h
  · cases h; exact .inl ⟨‹_›, rfl⟩
  · rename_i e rest hp
    refine .inr ⟨e, rest, hp, ?_⟩
    cases e with
    | reset => simp only [perform] at h; cases h; exact .inr (.inr (.inr (.inr ⟨rfl, rfl⟩)))
    | display g x y =>
      simp only [perform, displayRead] at h
      split at h
      · cases h; exact .inr (.inl ⟨nofun, _, rfl⟩)
      · cases h
    | bus a =>
      cases a with
      | read off size =>
        simp only [perform, busAccess] at h
        split at h
        · cases h; exact .inl ⟨nofun, _, rfl⟩
        · cases h
      | write off size v =>
        simp only [perform, busAccess] at h
        split at h
        · rename_i r hr
          have hsr : size = 4 ∧ regAt s.cfg off = some r := by
            unfold admittedReg at hr
            (repeat' split at hr) <;> cases hr
            exact ⟨by simp_all, ‹_›⟩
          obtain ⟨rfl, hreg⟩ := hsr
          cases r with
          | cmd => exact .inr (.inr (.inr (.inl ⟨off, v, rfl, hreg, h⟩)))
          | arg k => simp only [writeReg] at h; cases h; exact .inr (.inr (.inl ⟨nofun, _, rfl⟩))
          | _ => simp only [writeReg] at h; cases h; exact .inl ⟨nofun, s.reads, rfl⟩
        · cases h

/-- Everything a command word can do: run the command it decodes to, or raise ILLEGAL. -/
theorem runCommandWord_cases {w : Word} {s t : State} (h : runCommandWord w s = .next t) :
    (∃ i, decode w = .ok i ∧ exec i { s with cmd := w } = .next t) ∨
      ((∃ e, decode w = .error e) ∧ t = { s with cmd := w }.raiseFault .illegal) := by
  unfold runCommandWord at h
  split at h
  · exact .inl ⟨_, ‹_›, h⟩
  · cases h; exact .inr ⟨⟨_, ‹_›⟩, rfl⟩

/-- A run whose first step answers a next state goes on from there. -/
theorem core_run_next {n : Nat} {s t : State} (h : step s = .next t) : core.run (n + 1) s = core.run n t := by
  have h' : core.step s = .next t := h
  simp only [Host.Core.run, h']

end Sys2Proof.Machine
end

