-- ==== Sys2Proof/Laws/PerInstr.lean ====
section
/-! SUPPORT. The family CommandWord: for each command, its word has no bit above the opcode, decodes to it alone, and it reads
at most the ten argument registers. -/

namespace Sys2Proof.Laws.CommandWord

/-- R54, R55, R56: the command's word is its opcode zero-extended, decodes to it, and its operands fit ARG0..ARG9. -/
def Statement (i : Instr) : Prop :=
  wordRsv (encode i) = 0 ∧ wordOp (encode i) = opcodeOf i ∧ decode (encode i) = .ok i ∧ (slots i).length ≤ 10

theorem nop : Statement .nop := ⟨rfl, rfl, rfl, by decide⟩
theorem screate : Statement .screate := ⟨rfl, rfl, rfl, by decide⟩
theorem sdestroy : Statement .sdestroy := ⟨rfl, rfl, rfl, by decide⟩
theorem sclear : Statement .sclear := ⟨rfl, rfl, rfl, by decide⟩
theorem sgetpix : Statement .sgetpix := ⟨rfl, rfl, rfl, by decide⟩
theorem sputpix : Statement .sputpix := ⟨rfl, rfl, rfl, by decide⟩
theorem sinfo : Statement .sinfo := ⟨rfl, rfl, rfl, by decide⟩
theorem blitMasked : Statement .blitMasked := ⟨rfl, rfl, rfl, by decide⟩
theorem blitStretch : Statement .blitStretch := ⟨rfl, rfl, rfl, by decide⟩
theorem smpcreate : Statement .smpcreate := ⟨rfl, rfl, rfl, by decide⟩
theorem smpdestroy : Statement .smpdestroy := ⟨rfl, rfl, rfl, by decide⟩
theorem smpwrite : Statement .smpwrite := ⟨rfl, rfl, rfl, by decide⟩
theorem smpread : Statement .smpread := ⟨rfl, rfl, rfl, by decide⟩
theorem smpinfo : Statement .smpinfo := ⟨rfl, rfl, rfl, by decide⟩
theorem pinit : Statement .pinit := ⟨rfl, rfl, rfl, by decide⟩
theorem valloc : Statement .valloc := ⟨rfl, rfl, rfl, by decide⟩
theorem vfree : Statement .vfree := ⟨rfl, rfl, rfl, by decide⟩
theorem vplaymode : Statement .vplaymode := ⟨rfl, rfl, rfl, by decide⟩
theorem vstart : Statement .vstart := ⟨rfl, rfl, rfl, by decide⟩
theorem vstop : Statement .vstop := ⟨rfl, rfl, rfl, by decide⟩
theorem vsetpos : Statement .vsetpos := ⟨rfl, rfl, rfl, by decide⟩
theorem vsetfreq : Statement .vsetfreq := ⟨rfl, rfl, rfl, by decide⟩
theorem vsetvol : Statement .vsetvol := ⟨rfl, rfl, rfl, by decide⟩
theorem vsetpan : Statement .vsetpan := ⟨rfl, rfl, rfl, by decide⟩
theorem vsweepfreq : Statement .vsweepfreq := ⟨rfl, rfl, rfl, by decide⟩
theorem vrampvol : Statement .vrampvol := ⟨rfl, rfl, rfl, by decide⟩

end Sys2Proof.Laws.CommandWord
end

