-- ==== Sys2Proof/Laws/Voices.lean ====
section
/-! SUPPORT. What the checks and effects of the voice commands do, and a blit as one fold over its offsets. -/

namespace Sys2Proof.Machine

/-! ### Checks -/

/-- A command whose checks begin with the pool checks and the voice check is guarded by them. -/
theorem voiceGuarded_of_checks {i : Instr} {s : State} {rest : List Check} (hl : checksOf s i = voiceChecks s ++ rest) :
    VoiceGuarded i s := by
  refine ⟨fun h => exec_fail ?_, fun h => exec_fail ?_, fun h hb => exec_fail ?_⟩
  · simp [hl, voiceChecks, poolChecks, h]
  · simp [hl, voiceChecks, poolChecks, h]
  · have hv : s.validVoice (s.argN 0) = false := by
      rcases hb with hb | hb
      · simp only [State.validVoice, Bool.and_eq_false_iff, decide_eq_false_iff_not]; exact .inl (by omega)
      · simp [State.validVoice, hb]
    simp [hl, voiceChecks, poolChecks, h, voiceCheck, hv]

/-- The checks of a voice command pass when ARG0 names a voice. -/
theorem VoiceNamed.pass {s : State} {v : Fin 32} (h : VoiceNamed s v) : firstFault (voiceChecks s) = none := by
  obtain ⟨h1, h2, h3, h4⟩ := h
  simp [voiceChecks, poolChecks, voiceCheck, h1, State.validVoice, ← h2, h3, h4]

/-- The voice a command acts on is the one ARG0 names. -/
theorem VoiceNamed.voiceArg {s : State} {v : Fin 32} (h : VoiceNamed s v) : s.voiceArg = v := voiceSlot_eq h.2.1

theorem VoiceNamed.byte_fail {s : State} {k : Fin 10} {v : Fin 32} (hv : VoiceNamed s v) (h : 255 < s.argN k) :
    firstFault (voiceChecks s ++ [byteCheck s k]) = some .badArg := by
  rw [firstFault_append, hv.pass]
  simp only [firstFault_cons, byteCheck, decide_eq_true_eq]
  rw [if_neg (by omega)]

theorem VoiceNamed.byte_pass {s : State} {k : Fin 10} {v : Fin 32} (hv : VoiceNamed s v) (h : s.argN k ≤ 255) :
    firstFault (voiceChecks s ++ [byteCheck s k]) = none := by
  rw [firstFault_append, hv.pass]
  simp [byteCheck, h]

/-- Bit 0 of a word is its parity. -/
theorem getLsbD_zero_eq (w : Word) : w.getLsbD 0 = decide (w.toNat % 2 = 1) := by
  simp [BitVec.getLsbD, Nat.testBit_zero]

theorem ofNat_eq_of_toNat {b : Byte} {n : Nat} (h : b.toNat = n) : BitVec.ofNat 8 n = b := by rw [← h]; simp

/-! ### Effects -/

/-- The silent guards of `do_start` (R86). -/
theorem startVoice_guard {s : State} {v : Fin 32}
    (h : s.isFree v = true ∨ s.liveSample (s.voice v).sample.toNat = false ∨
      s.sampleSize (s.voice v).sample.toNat = 0) : s.startVoice v = s := by
  rcases startVoice_cases s v with e | ⟨hf, hp, -⟩
  · exact e
  · unfold State.playable at hp
    split at hp
    · rename_i M hM
      rcases h with h | h | h
      · rw [hf] at h; cases h
      · rw [State.liveSample, hM] at h; cases h
      · rw [State.sampleSize, hM] at h
        rw [decide_eq_true_eq] at hp
        exact absurd h hp
    · cases hp

/-- Storing a voice record and sending its volume and pan if it plays. -/
theorem pushVolPan_setVoice (s : State) (v : Fin 32) (V : Voice) :
    (s.setVoice v V).pushVolPan v =
      { s with
        voices := s.voices.set v V
        log := s.log ++ if V.playing then [.setVolPan v V.vol V.pan] else [] } := by
  unfold State.pushVolPan
  rw [State.voice_setVoice, if_pos rfl]
  cases h : V.playing
  · simp only [Bool.false_eq_true, if_false, List.append_nil]; rfl
  · rfl

/-- The scan of VALLOC finds the lowest number that passes. -/
theorem find_range_lowest {n i : Nat} {p : Nat → Bool} (hi : i < n) (hp : p i = true) (hl : ∀ j, j < i → p j = false) :
    (List.range n).find? p = some i := by
  rw [List.find?_range_eq_some]
  exact ⟨hp, by simpa using hi, fun j hj => by simp [hl j hj]⟩

/-- The mask PINIT takes: the reported channels below the capacity. -/
theorem getLsbD_lowMask (m : Word) (n : Nat) (v : Fin 32) :
    (m &&& BitVec.ofNat 32 (2 ^ n - 1)).getLsbD v = (m.getLsbD v && decide (v.val < n)) := by
  simp only [BitVec.getLsbD_and, BitVec.getLsbD_ofNat, Nat.testBit_two_pow_sub_one, v.isLt, decide_true, Bool.true_and]

/-! ### Blits -/

/-- Two nested counted loops are one fold over the offsets in row-major order. -/
theorem forUpto_rowMajor {σ : Type} (w h : Nat) (f : Nat → Nat → σ → σ) (s : σ) :
    forUpto h (fun y s => forUpto w (fun x s => f x y s) s) s =
      (rowMajor w h).foldl (fun s p => f p.1 p.2 s) s := by
  simp only [forUpto_eq_foldl, rowMajor, List.foldl_flatMap, List.foldl_map]

/-- Where a pixel write is read back. -/
theorem State.surfaceByte_setPixel {s : State} {h : Nat} {S : Surface} (hS : s.surface? h = some S) (x y : Nat) (v : Byte)
    (a : Nat) : (s.setPixel h x y v).surfaceByte h a = if a = y * S.w.toNat + x then v else s.surfaceByte h a := by
  rw [State.setPixel_eq hS, State.surfaceByte, State.surface?_putSurface s (State.surface?_ne_zero hS), if_pos rfl]
  simp only [Memory.read_write, State.surfaceByte, hS]

end Sys2Proof.Machine
end

