-- ==== Sys2Proof/Tests/Slice0.lean ====
section
/-! SUPPORT. Tests. Expected results come from spec/95_test_vectors.md and from the rules named at each test; the vector's
number stands before it. The last part shows, for every statement with hypotheses, a state that meets them. -/

namespace Sys2Proof.Tests

open Sys2Proof Sys2Proof.Machine

/-! ### Helpers -/

/-- The parameters the vectors assume: the defaults of R7, four surfaces, four samples, no backend. -/
def cfg : Config :=
  { surfacesLess1 := 3, samplesLess1 := 3, backendPresent := false, blkPage := 16, busErrorResponse := ⟨7⟩ }

/-- The state after reset with those parameters. -/
def base : State := State.resetWith cfg

/-- A state with the ARG registers set. -/
def withOps (s : State) (ops : List Nat) : State :=
  { s with args := Vector.ofFn fun k => BitVec.ofNat 32 (ops.getD k.val 0) }

/-- A surface with its pixels listed row by row. -/
def surf (w h : Nat) (bytes : List Nat) : Surface :=
  { w := BitVec.ofNat 16 w
    h := BitVec.ofNat 16 h
    pix := Memory.ofDraw (w * h) (bytes.zipIdx.map fun p => (p.2, BitVec.ofNat 8 p.1)) }

/-- The pixels of a surface, row by row. -/
def pixels (s : State) (h : Nat) : List Nat :=
  (List.range (s.height h)).flatMap fun y => (List.range (s.width h)).map fun x => (s.pixel h x y).toNat

/-- The state a command leaves. -/
def after (i : Instr) (s : State) : State :=
  match exec i s with
  | .next t => t
  | .fault _ => s
  | .refused _ => s

/-- What a step refuses, if it refuses. -/
def refusal (s : State) : Option Refusal :=
  match step s with
  | .next _ => none
  | .fault _ => none
  | .refused r => some r

/-- Two surfaces: the source `a` is surface 1, the destination `b` is surface 2. -/
def two (a b : Surface) : State := { base with surfaces := [(1, a), (2, b)] }

/-- Sample 1 of vector M1: 16 bits, stereo, 22050 Hz, 100 frames. -/
def sampleM1 : Sample :=
  { bits := .bits16, channels := .stereo, rate := 22050, len := 100, loopStart := 0, loopEnd := 100, priority := 128,
    data := [(399, 0xFF)] }

/-- The sample of the setup of V-C1: 8 bits, mono, 11025 Hz, 100 frames. -/
def sampleVC : Sample :=
  { bits := .bits8, channels := .mono, rate := 11025, len := 100, loopStart := 0, loopEnd := 100, priority := 128,
    data := [] }

/-- The setup of V-C1: voice 0 allocated with sample 1, slot 1 free. -/
def ready : State :=
  { base with
    poolState := .ready, capacity := 2, availMask := 3, freeMask := 2
    samples := [(1, sampleVC)]
    voices := base.voices.set 0 { Voice.initial with sample := 1, rate := 11025, vol := 255 } }

/-- After V-C3: voice 0 plays, pan 0. -/
def playing : State :=
  { ready with
    voices := ready.voices.set 0
      { playing := true, loop := false, sample := 1, position := 0, rate := 11025, vol := 255, pan := 0 } }

/-- A failed pool (V12). -/
def failed : State := { base with poolState := .failed }

/-! ### Parameters and codes -/

/-- R7: the defaults, in the machine at hand and in the vectors'. -/
theorem test_defaults :
    Config.machine.maxVoices = 32 ∧ Config.machine.stereoByteLen = .legacy ∧ cfg.maxVoices = 32 ∧ cfg.blkBase = 0x10000 ∧
    State.reset.cfg = Config.machine := ⟨rfl, rfl, rfl, rfl, rfl⟩
/-- R16: what the host reads from STATUS after each outcome. -/
theorem test_status_codes :
    ([.ok, .noneFree, .allocFail, .initFail, .fault .illegal, .fault .badHandle, .fault .badArg, .fault .zeroDim,
      .fault .badVoice, .fault .poolNotReady, .fault .poolFailed, .fault .badState, .fault .sampleBusy] : List Status).map
        (fun st => ({ base with status := st } : State).readReg .status) =
      [0x00, 0x01, 0x02, 0x03, 0x81, 0x82, 0x83, 0x84, 0x85, 0x86, 0x87, 0x88, 0x89] := by decide

/-! ### Well-formedness: an ill-formed term for each check -/

theorem test_wf_access : (BusAccess.read 0x000 4).wellFormed cfg = true ∧ (BusAccess.write 0x044 4 1).wellFormed cfg = true := by
  decide
theorem test_wf_width : (BusAccess.write 0x000 1 0).wellFormed cfg = false ∧ (BusAccess.read 0x000 2).wellFormed cfg = false ∧
    (BusAccess.read 0x000 8).wellFormed cfg = false := by decide
theorem test_wf_misaligned : (BusAccess.read 0x002 4).wellFormed cfg = false := by decide
theorem test_wf_beyond : (BusAccess.read 0x1000 4).wellFormed cfg = false := by decide
theorem test_wf_reserved : (BusAccess.write 0x014 4 0).wellFormed cfg = false ∧
    (BusAccess.read 0x118 4).wellFormed cfg = false := by decide
theorem test_wf_operand_count : (Statement.command .sclear [1]).wellFormed cfg = false ∧
    (Statement.command .sclear [1, 7]).wellFormed cfg = true := by decide
theorem test_wf_wr : (Statement.wr 0x05C 1).wellFormed cfg = false ∧ (Statement.wr 0x060 1).wellFormed cfg = true := by decide
theorem test_wf_rd : (Statement.rd 0x003).wellFormed cfg = false ∧ (Statement.rd 0x4FC).wellFormed cfg = false ∧
    (Statement.rd 0x4F4).wellFormed cfg = true := by decide

/-! ### Decoding: the words of R54 and R55, written out in binary (R54: op is CMD[7:0], CMD[31:8] is 0) -/

theorem test_decode_general : decode 0b00000000000000000000000000000000 = .ok .nop := by decide
theorem test_decode_surface :
    decode 0b00000000000000000000000000010000 = .ok .screate ∧ decode 0b00000000000000000000000000010001 = .ok .sdestroy ∧
    decode 0b00000000000000000000000000010010 = .ok .sclear ∧ decode 0b00000000000000000000000000010011 = .ok .sgetpix ∧
    decode 0b00000000000000000000000000010100 = .ok .sputpix ∧ decode 0b00000000000000000000000000010101 = .ok .sinfo := by
  decide
theorem test_decode_blit :
    decode 0b00000000000000000000000000100000 = .ok .blitMasked ∧
    decode 0b00000000000000000000000000100001 = .ok .blitStretch := by decide
theorem test_decode_sample :
    decode 0b00000000000000000000000000110000 = .ok .smpcreate ∧
    decode 0b00000000000000000000000000110001 = .ok .smpdestroy ∧
    decode 0b00000000000000000000000000110010 = .ok .smpwrite ∧ decode 0b00000000000000000000000000110011 = .ok .smpread ∧
    decode 0b00000000000000000000000000110100 = .ok .smpinfo := by decide
theorem test_decode_pool :
    decode 0b00000000000000000000000001000000 = .ok .pinit ∧ decode 0b00000000000000000000000001000001 = .ok .valloc ∧
    decode 0b00000000000000000000000001000010 = .ok .vfree := by decide
theorem test_decode_voice :
    decode 0b00000000000000000000000001010000 = .ok .vplaymode ∧ decode 0b00000000000000000000000001010001 = .ok .vstart ∧
    decode 0b00000000000000000000000001010010 = .ok .vstop ∧ decode 0b00000000000000000000000001010011 = .ok .vsetpos ∧
    decode 0b00000000000000000000000001010100 = .ok .vsetfreq ∧ decode 0b00000000000000000000000001010101 = .ok .vsetvol ∧
    decode 0b00000000000000000000000001010110 = .ok .vsetpan ∧
    decode 0b00000000000000000000000001010111 = .ok .vsweepfreq ∧
    decode 0b00000000000000000000000001011000 = .ok .vrampvol := by decide
/-- E3, E4, E5, E6, E7. -/
theorem test_decode_illegal :
    decode 0x00000100 = .error .reservedBits ∧ decode 0x00000016 = .error .unassignedOpcode ∧
    decode 0x000000FF = .error .unassignedOpcode ∧ decode 0x80000021 = .error .reservedBits ∧
    decode 0x00000059 = .error .unassignedOpcode := by decide

/-! ### The step -/

/-- E3. -/
theorem test_step_illegal : ∃ t, step (base.withFetchWord 32 0x100) = .next t ∧ t.status = .fault .illegal ∧
    t.fault = some .illegal ∧ t.faultCmd = 0x100 ∧ t.cmd = 0x100 ∧ t.pending = [] := ⟨_, rfl, rfl, rfl, rfl, rfl, rfl⟩
/-- E8. -/
theorem test_step_read : ∃ t, step { base with cmd := 0x10, pending := [.bus (.read 0 4)] } = .next t ∧ t.reads = [0x10] :=
  ⟨_, rfl, rfl⟩
/-- R39: a write to a read-only register is ignored. -/
theorem test_step_read_only : ∃ t, step { base with pending := [.bus (.write 0x060 4 2)] } = .next t ∧ t.poolState = .uninit :=
  ⟨_, rfl, rfl⟩
theorem test_step_refuses :
    refusal { base with pending := [.bus (.read 0 8)] } = some (.accessWidth ⟨7⟩) ∧
    refusal { base with pending := [.bus (.read 2 4)] } = some (.accessMisaligned ⟨7⟩) ∧
    refusal { base with pending := [.bus (.read 0x1000 4)] } = some (.accessBeyondWindow ⟨7⟩) ∧
    refusal { base with pending := [.bus (.read 0x014 4)] } = some (.accessReserved ⟨7⟩) := by decide
/-- R112. -/
theorem test_step_reset : ∃ t, step { playing with pending := [.reset] } = .next t ∧ t = base := ⟨_, rfl, rfl⟩
/-- E7. -/
theorem test_step_latch : ∃ t, step ({ base with fault := some .zeroDim, faultCmd := 0x21 }.withFetchWord 32 0x59) = .next t ∧
    t.status = .fault .illegal ∧ t.fault = some .zeroDim ∧ t.faultCmd = 0x21 := ⟨_, rfl, rfl, rfl, rfl⟩

/-! ### Assembly -/

/-- P1, step 5. -/
theorem test_assemble_blit :
    (assembleLine "BLIT_MASKED 1, 2, 0, 0, 2, 2, 4, 4".toList).map writePairs =
      some [(0x020, 1), (0x024, 2), (0x028, 0), (0x02C, 0), (0x030, 2), (0x034, 2), (0x038, 4), (0x03C, 4), (0x000, 0x20)] := by
  decide
/-- P3, step 8, with a comment and a hexadecimal literal. -/
theorem test_assemble_vsetfreq :
    (assembleLine "VSETFREQ 0, 0xAC44 ; restart".toList).map writePairs = some [(0x020, 0), (0x024, 44100), (0x000, 0x54)] := by
  decide
/-- R60: a wrong operand count is an error. -/
theorem test_assemble_count : assembleLine "VSTART 0, 1".toList = none ∧ assembleLine "NOP".toList = some [.write 0 4 0] := by
  decide
/-- R61. -/
theorem test_assemble_scopy :
    (assembleLine "SCOPY 1, 2, 4, 4".toList).map writePairs =
      some [(0x020, 1), (0x024, 2), (0x028, 0), (0x02C, 0), (0x030, 0), (0x034, 0), (0x038, 4), (0x03C, 4), (0x000, 0x20)] := by
  decide

/-! ### General and surface commands -/

/-- E2. -/
theorem test_nop :
    let t := after .nop { base with status := .fault .sampleBusy, result := 7, fault := some .sampleBusy }
    t.status = .ok ∧ t.result = 0 ∧ t.fault = some .sampleBusy := by decide
/-- S5. -/
theorem test_screate :
    let t := after .screate (withOps { base with answers := [⟨some 2, [(5, 9)], none⟩] } [320, 1])
    t.status = .ok ∧ t.result = 2 ∧ t.width 2 = 320 ∧ t.height 2 = 1 ∧ t.pixel 2 5 0 = 9 ∧ t.answers = [] := by decide
/-- S3, S4: the oracle is not asked. -/
theorem test_screate_dim :
    (after .screate (withOps base [0, 4])).status = .fault .badArg ∧ (after .screate (withOps base [0, 4])).asked = 0 ∧
    (after .screate (withOps base [65536, 1])).status = .fault .badArg := by decide
/-- S9. -/
theorem test_sdestroy :
    let t := after .sdestroy (withOps (two (surf 1 1 [7]) (surf 1 1 [8])) [1])
    t.status = .ok ∧ t.liveSurface 1 = false ∧ t.pixel 2 0 0 = 8 ∧ (after .sdestroy t).status = .fault .badHandle := by decide
/-- S7. -/
theorem test_sdestroy_zero : (after .sdestroy (withOps base [0])).status = .ok := by decide
/-- S10. -/
theorem test_sclear :
    let t := after .sclear (withOps (two (surf 2 2 [1, 0, 3, 4]) (surf 1 1 [8])) [1, 7])
    pixels t 1 = [7, 7, 7, 7] ∧ pixels t 2 = [8] ∧ t.status = .ok := by decide
/-- S11. -/
theorem test_sclear_byte : (after .sclear (withOps (two (surf 1 1 [1]) (surf 1 1 [8])) [1, 256])).status = .fault .badArg := by
  decide
/-- S13: coordinates wrap. -/
theorem test_sgetpix : (after .sgetpix (withOps (two (surf 2 3 [1, 2, 3, 4, 5, 6]) (surf 1 1 [8])) [1, 5, 7])).result = 4 := by
  decide
/-- S14. -/
theorem test_sgetpix_c16 :
    (after .sgetpix (withOps (two (surf 1 1 [1]) (surf 1 1 [8])) [1, 65536, 0])).status = .fault .badArg := by decide
/-- S15, S16: the write is unmasked and wraps. -/
theorem test_sputpix :
    pixels (after .sputpix (withOps (two (surf 2 2 [7, 7, 7, 7]) (surf 1 1 [8])) [1, 3, 2, 0])) 1 = [7, 0, 7, 7] := by decide
/-- S18. -/
theorem test_sputpix_order : (after .sputpix (withOps base [7, 70000, 0, 300])).status = .fault .badHandle := by decide
/-- S5. -/
theorem test_sinfo : (after .sinfo (withOps (two (surf 320 1 []) (surf 1 1 [8])) [1])).result = 0x00010140 := by decide

/-! ### Blit commands -/

/-- B4. -/
theorem test_blit_masked :
    pixels (after .blitMasked (withOps (two (surf 2 2 [1, 2, 3, 4]) (surf 4 4 [])) [1, 2, 1, 1, 3, 3, 2, 2])) 2 =
      [1, 0, 0, 2, 0, 0, 0, 0, 0, 0, 0, 0, 3, 0, 0, 4] := by decide
/-- B3: source and destination are one surface. -/
theorem test_blit_masked_overlap :
    pixels (after .blitMasked (withOps (two (surf 3 1 [1, 2, 3]) (surf 1 1 [])) [1, 1, 0, 0, 1, 0, 3, 1])) 1 = [1, 1, 1] := by
  decide
/-- B9. -/
theorem test_blit_stretch :
    pixels (after .blitStretch (withOps (two (surf 2 2 [1, 2, 3, 4]) (surf 4 4 [])) [1, 2, 1, 0, 2, 2, 0, 0, 4, 4])) 2 =
      [1, 2, 2, 1, 1, 2, 2, 1, 3, 4, 4, 3, 3, 4, 4, 3] := by decide
/-- B15, B16. -/
theorem test_blit_stretch_faults :
    (after .blitStretch (withOps (two (surf 1 1 [1]) (surf 1 1 [1])) [1, 2, 0, 0, 2, 2, 0, 0, 0, 4])).status =
      .fault .zeroDim ∧
    (after .blitStretch (withOps (two (surf 1 1 [1]) (surf 1 1 [1])) [1, 2, 0, 0, 2, 2, 0, 0, 70000, 0])).status =
      .fault .badArg := by decide

/-! ### Sample commands -/

/-- M1. -/
theorem test_smpcreate :
    let t := after .smpcreate (withOps { base with answers := [⟨some 1, [(3, 4)], none⟩] } [16, 2, 22050, 100])
    t.result = 1 ∧ t.sampleSize 1 = 400 ∧ t.sampleField 1 5 = 100 ∧ t.sampleField 1 6 = 128 ∧ t.sampleByte 1 3 = 4 := by decide
/-- M5, M6. -/
theorem test_smpcreate_stops :
    (after .smpcreate (withOps base [8, 3, 8000, 10])).status = .fault .badArg ∧
    (after .smpcreate (withOps { base with answers := [⟨none, [], none⟩] } [8, 1, 8000, 10])).status = .allocFail := by decide
/-- M15. -/
theorem test_smpdestroy_busy :
    (after .smpdestroy (withOps playing [1])).status = .fault .sampleBusy ∧
    (after .smpdestroy (withOps playing [1])).liveSample 1 = true := by decide
/-- M16. -/
theorem test_smpdestroy :
    (after .smpdestroy (withOps ready [1])).liveSample 1 = false ∧
    ((after .smpdestroy (withOps ready [1])).voice 0).sample = 1 := by decide
/-- M7, M8. -/
theorem test_smpwrite :
    (after .smpwrite (withOps { base with samples := [(1, sampleM1)] } [1, 398, 5])).sampleByte 1 398 = 5 ∧
    (after .smpwrite (withOps { base with samples := [(1, sampleM1)] } [1, 400, 0])).status = .fault .badArg := by decide
/-- M10. -/
theorem test_smpwrite_order : (after .smpwrite (withOps base [9, 0, 300])).status = .fault .badHandle := by decide
/-- M7. -/
theorem test_smpread : (after .smpread (withOps { base with samples := [(1, sampleM1)] } [1, 399])).result = 255 := by decide
/-- M12. -/
theorem test_smpinfo :
    ((List.range 7).map fun f => (after .smpinfo (withOps { base with samples := [(1, sampleM1)] } [1, f])).result) =
      [16, 2, 22050, 100, 0, 100, 128] := by decide
/-- M13. -/
theorem test_smpinfo_field :
    (after .smpinfo (withOps { base with samples := [(1, sampleM1)] } [1, 7])).status = .fault .badArg := by decide

/-! ### Voice pool commands -/

/-- V8. -/
theorem test_pinit :
    let t := after .pinit
      (withOps { base with cfg := { cfg with backendPresent := true }, answers := [⟨none, [], some 0xA⟩] } [4])
    t.availMask = 0xA ∧ t.freeMask = 0xA ∧ t.capacity = 4 ∧ t.poolState = .ready ∧ t.log = [.init] := by decide
/-- V6, V3. -/
theorem test_pinit_all :
    (after .pinit (withOps base [32])).availMask = 0xFFFFFFFF ∧ (after .pinit (withOps base [33])).status = .fault .badArg := by
  decide
/-- V16: slot 0 is taken, slot 1 is free. -/
theorem test_valloc :
    let t := after .valloc (withOps ready [1])
    t.result = 1 ∧ t.freeMask = 0 ∧ (t.voice 1).rate = 11025 ∧ (t.voice 1).sample = 1 ∧ (t.voice 1).pan = 128 := by decide
/-- V7. -/
theorem test_valloc_none :
    (after .valloc (withOps { ready with freeMask := 0 } [0])).status = .noneFree ∧
    (after .valloc (withOps { ready with freeMask := 0 } [0])).result = 0xFFFFFFFF := by decide
/-- V18. -/
theorem test_vfree :
    let t := after .vfree (withOps playing [0])
    t.log = [.silence 0] ∧ (t.voice 0).playing = false ∧ t.freeMask = 3 ∧ (t.voice 0).sample = 1 := by decide
/-- V20. -/
theorem test_vfree_voice : (after .vfree (withOps ready [2])).status = .fault .badVoice := by decide

/-! ### Voice control commands -/

/-- V-C11, V-C13: bit 0 only. -/
theorem test_vplaymode :
    ((after .vplaymode (withOps ready [0, 3])).voice 0).loop = true ∧
    (after .vplaymode (withOps ready [0, 2])).log = [.setLoop 0 false] := by decide
/-- V-C2. -/
theorem test_vstart :
    let t := after .vstart (withOps ready [0])
    (t.voice 0).playing = true ∧ t.log = [.play 0 false .pcm8 11025 255 128 1 100] := by decide
/-- V-C19. -/
theorem test_vstart_free : (after .vstart (withOps ready [1])).status = .ok ∧ (after .vstart (withOps ready [1])).log = [] := by
  decide
/-- V-C14, V-C20. -/
theorem test_vstop :
    ((after .vstop (withOps playing [0])).voice 0).playing = false ∧ (after .vstop (withOps ready [1])).log = [.silence 1] := by
  decide
/-- V-C5. -/
theorem test_vsetpos :
    ((after .vsetpos (withOps playing [0, 50])).voice 0).position = 50 ∧ (after .vsetpos (withOps playing [0, 50])).log = [] := by
  decide
/-- V-C6. -/
theorem test_vsetpos_restart : (after .vsetpos (withOps playing [0, 0])).log = [.play 0 false .pcm8 11025 255 0 1 100] := by
  decide
/-- V-C7, V-C16. -/
theorem test_vsetfreq :
    (after .vsetfreq (withOps playing [0, 22050])).log = [.play 0 false .pcm8 22050 255 0 1 100] ∧
    (after .vsetfreq (withOps ready [0, 4000])).log = [] ∧ ((after .vsetfreq (withOps ready [0, 4000])).voice 0).rate = 4000 := by
  decide
/-- V-C15 and the push of V-C9. -/
theorem test_vsetvol :
    ((after .vsetvol (withOps ready [0, 100])).voice 0).vol = 100 ∧ (after .vsetvol (withOps ready [0, 100])).log = [] ∧
    (after .vsetvol (withOps playing [0, 10])).log = [.setVolPan 0 10 0] := by decide
/-- V-C21, V-C4. -/
theorem test_vsetvol_faults :
    (after .vsetvol (withOps ready [40, 999])).status = .fault .badVoice ∧
    (after .vsetvol (withOps ready [0, 256])).status = .fault .badArg := by decide
/-- V-C3, from pan 0 to 64. -/
theorem test_vsetpan : (after .vsetpan (withOps playing [0, 64])).log = [.setVolPan 0 255 64] := by decide
/-- V-C8. -/
theorem test_vsweepfreq :
    (after .vsweepfreq (withOps playing [0, 1000, 8000])).log = [.play 0 false .pcm8 8000 255 0 1 100] := by decide
/-- V-C9. -/
theorem test_vrampvol :
    (after .vrampvol (withOps playing [0, 500, 10])).log = [.setVolPan 0 10 0] ∧
    ((after .vrampvol (withOps playing [0, 500, 10])).voice 0).vol = 10 := by decide
/-- V-C10. -/
theorem test_vrampvol_byte : (after .vrampvol (withOps playing [0, 500, 300])).status = .fault .badArg := by decide
/-- §7, byte length. -/
theorem test_bytelen :
    byteLen .legacy sampleM1 = 200 ∧ byteLen .fixed sampleM1 = 400 ∧ sampleM1.size = 400 ∧
    byteLen .legacy { sampleM1 with len := 0xFFFFFFFF } = 0x1FFFFFFFE ∧
    byteLen .fixed { sampleM1 with len := 0xFFFFFFFF } = 0x3FFFFFFFC := by decide
/-- §7, normalized mapping. -/
theorem test_normalized : volumeN 51 = 1 / 5 ∧ panN 51 = -77 / 128 ∧ panN 192 = 1 / 2 := by
  have h : ((51 : Byte).toNat : ℚ) = 51 ∧ ((192 : Byte).toNat : ℚ) = 192 := ⟨by decide +kernel, by decide +kernel⟩
  rw [volumeN, panN, panN, h.1, h.2]
  norm_num

/-! ### Witnesses: a state and operands that meet the hypotheses of each statement, clause by clause -/

/-- A state whose next event is the one given. -/
def facing (s : State) (e : Event) : State := { s with pending := [e] }

/-- Surfaces 1 (2×2, every pixel 3) and 2 (2×2), and the sample and voices of `playing`. -/
def busy : State := { playing with surfaces := [(1, surf 2 2 [3, 3, 3, 3]), (2, surf 2 2 [8, 8, 8, 8])] }

/-- A command run from any state ends in a next state. -/
theorem test_exec_after (i : Instr) (s : State) : exec i s = .next (after i s) := by cases i <;> rfl

/-- EveryOtherWordIsIllegal: both ends of every reserved range, and both ends of every family. -/
theorem test_hyp_illegal :
    (∀ w ∈ [0x01, 0x0F, 0x16, 0x1F, 0x22, 0x2F, 0x35, 0x3F, 0x43, 0x4F, 0x59, (0xFF : Word)],
      decode w = .error .unassignedOpcode) ∧
    (∀ w ∈ [0x00, 0x10, 0x15, 0x20, 0x21, 0x30, 0x34, 0x40, 0x42, 0x50, (0x58 : Word)], (decode w).toOption.isSome = true) ∧
    decode 0xFFFFFFFF = .error .reservedBits := by
  refine ⟨fun w hw => ?_, fun w hw => ?_, by decide⟩ <;> fin_cases hw <;> decide

/-- StepRunsDecodedCommand. -/
theorem test_hyp_step_runs :
    (facing busy (.bus (.write 0x000 4 0x58))).pending = .bus (.write 0x000 4 0x58) :: [] ∧ decode 0x58 = .ok .vrampvol ∧
    (facing busy (.bus (.write 0x000 4 0x59))).pending = .bus (.write 0x000 4 0x59) :: [] ∧
    decode 0x59 = .error .unassignedOpcode := by decide

/-- BusAccessRule: an admitted read and write, of CMD, of the last ARG and of the last voice register. -/
theorem test_hyp_bus_admitted :
    (facing base (.bus (.read 0x4F4 4))).pending = .bus (.read 0x4F4 4) :: [] ∧
    (4 = 4 ∧ 0x4F4 % 4 = 0 ∧ 0x4F4 < 0x1000 ∧ regAt base.cfg 0x4F4 = some (.voice 31 .vpan)) ∧
    (facing base (.bus (.write 0x044 4 5))).pending = .bus (.write 0x044 4 5) :: [] ∧
    (0x044 % 4 = 0 ∧ regAt base.cfg 0x044 = some (.arg 9)) ∧ regAt base.cfg 0x000 = some .cmd ∧
    regAt base.cfg 0x06C = some .availMask := by decide

/-- BusAccessRule: accesses outside the interface. -/
theorem test_hyp_bus_refused :
    (∀ r, ¬(8 = 4 ∧ 0 % 4 = 0 ∧ 0 < 0x1000 ∧ regAt base.cfg 0 = some r)) ∧
    (∀ r, ¬(4 = 4 ∧ 0x1000 % 4 = 0 ∧ 0x1000 < 0x1000 ∧ regAt base.cfg 0x1000 = some r)) ∧
    ∀ r, ¬(4 = 4 ∧ 0x4F8 % 4 = 0 ∧ 0x4F8 < 0x1000 ∧ regAt base.cfg 0x4F8 = some r) := by
  refine ⟨fun r h => absurd h.1 (by decide), fun r h => absurd h.2.2.1 (by decide), fun r h => ?_⟩
  have hn : regAt base.cfg 0x4F8 = none := by decide
  rw [hn] at h
  exact nomatch h.2.2.2

/-- RegisterMap: both ends of every reserved range. -/
theorem test_hyp_register_map :
    ∀ off ∈ [0x014, 0x01C, 0x048, 0x05C, 0x070, 0x0FC, 0x100 + 0x20 * cfg.maxVoices, 0xFFC],
      off % 4 = 0 ∧ regAt cfg off = none := by decide

/-- VoiceBlock: the last voice, a write to its last register, and a command that leaves a voice above CAPACITY alone. -/
theorem test_hyp_voice_block :
    (31 : Fin 32).val < busy.cfg.maxVoices ∧
    (facing busy (.bus (.write 0x4F4 4 1))).pending = .bus (.write (regOffset (.voice 31 .vpan)) 4 1) :: [] ∧ exec .vstart (withOps busy [0]) = .next (after .vstart (withOps busy [0])) ∧
    Instr.vstart ≠ .pinit ∧ (withOps busy [0]).capacity.toNat ≤ (2 : Fin 32).val := ⟨by decide, by decide, rfl, by decide, by decide⟩

/-- ArgumentRegisters: the last ARG, written and read; another ARG; an unused ARG. -/
theorem test_hyp_args :
    (facing base (.bus (.write (0x020 + 4 * (9 : Fin 10).val) 4 7))).pending = .bus (.write (0x020 + 4 * 9) 4 7) :: [] ∧
    (facing base (.bus (.read (0x020 + 4 * (9 : Fin 10).val) 4))).pending = .bus (.read (0x020 + 4 * 9) 4) :: [] ∧
    (8 : Fin 10) ≠ 9 ∧ (slots .nop).length ≤ (0 : Fin 10).val ∧ (slots .blitMasked).length ≤ (8 : Fin 10).val ∧
    exec .nop base = .next (after .nop base) := ⟨by decide, by decide, by decide, by decide, by decide, rfl⟩

/-- ResetEvent and DisplayReaderSeesPixels: the last pixel of a surface; CommandsAlwaysComplete: nothing pending. -/
theorem test_hyp_events :
    (facing busy .reset).pending = .reset :: [] ∧ (facing busy (.display 1 1 1)).pending = .display 1 1 1 :: [] ∧
    (facing busy (.display 1 1 1)).liveSurface 1 = true ∧ 1 < (facing busy (.display 1 1 1)).width 1 ∧
    1 < (facing busy (.display 1 1 1)).height 1 ∧ busy.pending = [] := by decide

/-- AssembledCommandRuns: operand counts of 0 and 10, and wrong ones; the loaded slots are below and above the count. -/
theorem test_hyp_assembled :
    ([] : List Word).length = (slots .nop).length ∧ (List.replicate 10 (1 : Word)).length = (slots .blitStretch).length ∧
    (List.replicate 9 (1 : Word)).length ≠ (slots .blitStretch).length ∧
    (9 : Fin 10).val < (List.replicate 10 (1 : Word)).length ∧ ([] : List Word).length ≤ (0 : Fin 10).val := by decide

/-- FaultDoesNothingElse, FaultsAreListed: a state without and one with a latched fault, and a command that faults. -/
theorem test_hyp_fault :
    base.fault = none ∧ ({ base with fault := some .zeroDim } : State).fault ≠ none ∧
    exec .sclear (withOps base [0, 1]) = .next (after .sclear (withOps base [0, 1])) ∧
    (after .sclear (withOps base [0, 1])).status = .fault .badHandle := ⟨by decide, by decide, rfl, by decide⟩

/-- FirstFaultLatches: a fault and none from a clean state; a step with a latched fault; reset; a step that ends clean. -/
theorem test_hyp_latch :
    (∃ t, runCommandWord 0x12 (withOps base [0, 1]) = .next t ∧ t.status = .fault .badHandle) ∧
    (∃ t, runCommandWord 0x59 base = .next t ∧ t.status = .fault .illegal) ∧
    (∃ t, runCommandWord 0 base = .next t ∧ t.status.isFault = false ∧ t.clean) ∧ base.fault = none ∧
    ({ facing base (.bus (.write 0 4 0)) with fault := some .zeroDim } : State).fault ≠ none ∧
    (facing base (.bus (.write 0 4 0))).pending.head? ≠ some .reset ∧ (facing base .reset).pending.head? = some .reset ∧
    (∃ t, step { facing base (.bus (.write 0 4 0)) with fault := some .zeroDim } = .next t) ∧
    (∃ t, step (facing base .reset) = .next t ∧ t.clean) ∧ ∃ t, step (facing base (.bus (.write 0 4 0))) = .next t ∧ t.clean :=
  ⟨⟨_, rfl, rfl⟩, ⟨_, rfl, rfl⟩, ⟨_, rfl, rfl, rfl⟩, by decide, by decide, by decide, by decide, ⟨_, rfl⟩, ⟨_, rfl, rfl⟩,
    ⟨_, rfl, rfl⟩⟩

/-- FaultPrecedence: F3, F5, F7, a word that is no command, and a command that passes. -/
theorem test_hyp_precedence :
    decode 0x55 = .ok .vsetvol ∧ firstFault (orderedChecks (withOps base [0, 999]) .vsetvol) = some .poolNotReady ∧
    decode 0x40 = .ok .pinit ∧ firstFault (orderedChecks (withOps ready [99]) .pinit) = some .badState ∧
    decode 0x21 = .ok .blitStretch ∧ firstFault (orderedChecks (withOps base []) .blitStretch) = some .badHandle ∧
    decode 0x59 = .error .unassignedOpcode ∧ firstFault (orderedChecks base .nop) = none := by decide

/-- ResultOnEachOutcome: each outcome, and a host write of STATUS and of RESULT. -/
theorem test_hyp_result :
    (after .sclear (withOps base [0, 1])).status.isFault = true ∧
    (after .valloc { ready with freeMask := 0 }).status = .noneFree ∧
    (after .screate (withOps { base with answers := [⟨none, [], none⟩] } [1, 1])).status = .allocFail ∧
    (after .pinit { base with cfg := { cfg with backendPresent := true }, answers := [⟨none, [], none⟩] }).status = .initFail ∧
    (after .nop base).status = .ok ∧ Instr.nop ∉ [Instr.screate, .sgetpix, .sinfo, .smpcreate, .smpread, .smpinfo, .valloc] ∧
    (facing base (.bus (.write 0x008 4 1))).pending = .bus (.write 0x008 4 1) :: [] ∧
    (facing base (.bus (.write 0x004 4 1))).pending = .bus (.write 0x004 4 1) :: [] := by decide

/-- FailedPoolRefuses: a pool command, PINIT, a step, and a command that is neither. -/
theorem test_hyp_failed_pool :
    failed.poolState = .failed ∧ needsPool .valloc = true ∧ needsPool .vrampvol = true ∧
    (∃ t, step (facing failed (.bus (.write 0 4 0x40))) = .next t) ∧
    (facing failed (.bus (.write 0 4 0x40))).pending.head? ≠ some .reset ∧
    needsPool .smpdestroy = false ∧ Instr.smpdestroy ≠ .pinit ∧ exec .smpdestroy failed = .next (after .smpdestroy failed) :=
  ⟨by decide, by decide, by decide, ⟨_, rfl⟩, by decide, by decide, by decide, rfl⟩

/-- PoolStateTransitions: each of the three. -/
theorem test_hyp_pool_transitions :
    (∃ t, step (facing base (.bus (.write 0 4 0x40))) = .next t ∧ t.poolState = .ready) ∧
    (∃ t, step { facing base (.bus (.write 0 4 0x40)) with
        cfg := { cfg with backendPresent := true }, answers := [⟨none, [], none⟩] } = .next t ∧ t.poolState = .failed) ∧
    ∃ t, step (facing ready .reset) = .next t ∧ t.poolState ≠ (facing ready .reset).poolState :=
  ⟨⟨_, rfl, rfl⟩, ⟨_, rfl, rfl⟩, ⟨_, rfl, by decide⟩⟩

/-- MaskWriters and LogOnlyGrows: a command of each kind named. -/
theorem test_hyp_mask_and_log :
    exec .vfree (withOps busy [0]) = .next (after .vfree (withOps busy [0])) ∧ Instr.vfree ≠ .pinit ∧
    exec .vstart (withOps busy [0]) = .next (after .vstart (withOps busy [0])) ∧ Instr.vstart ≠ .pinit ∧
    Instr.vstart ≠ .valloc ∧ Instr.vstart ≠ .vfree ∧ needsPool .sclear = false ∧ Instr.sclear ≠ .pinit ∧
    Instr.valloc ≠ .pinit := ⟨rfl, by decide, rfl, by decide, by decide, by decide, by decide, by decide, by decide⟩

/-- LiveEntriesKeepTheirShape: entries valid before and after, other handles, and a live one beside a new one. -/
theorem test_hyp_live_entries :
    (busy.surface? 1).isSome ∧ ((after .sclear (withOps busy [1, 5])).surface? 1).isSome ∧
    (busy.sample? 1).isSome ∧ ((after .smpwrite (withOps busy [1, 99, 5])).sample? 1).isSome ∧
    2 ≠ (withOps busy [1]).argN 0 ∧ 1 ≠ (withOps busy [1, 2]).argN 1 ∧ (withOps busy [1, 1]).liveSurface 1 = true ∧
    (withOps busy [8, 1, 1, 1]).liveSample 1 = true := by decide

/-- EveryStepKeepsTheInvariant, EveryStepKeepsMemoryCanonical, PlayingLastsUntilStopped: a state with live surfaces, a live
sample and a playing voice. -/
theorem test_hyp_invariant :
    (facing (withOps busy [0]) (.bus (.write 0 4 0x52))).Inv ∧
    (facing (withOps busy [0]) (.bus (.write 0 4 0x52))).memoryWf ∧
    (∃ t, step (facing (withOps busy [0]) (.bus (.write 0 4 0x52))) = .next t ∧ t.voices[0].playing = false) ∧
    (withOps busy [0]).voices[0].playing = true ∧ (withOps busy [0]).Inv :=
  ⟨by decide, by decide, ⟨_, rfl, by decide⟩, by decide, by decide⟩

/-- ScreateMakesASurface: both ends of the range, both ways out of it, the oracle's answers, and a full table. -/
theorem test_hyp_screate :
    ((1 ≤ (withOps base [1, 65535]).argN 0 ∧ (withOps base [1, 65535]).argN 0 ≤ 65535) ∧
      1 ≤ (withOps base [1, 65535]).argN 1 ∧ (withOps base [1, 65535]).argN 1 ≤ 65535) ∧
    ¬1 ≤ (withOps base [0, 1]).argN 0 ∧ ¬(withOps base [1, 65536]).argN 1 ≤ 65535 ∧
    (withOps { base with answers := [⟨none, [], none⟩] } [1, 65535]).nextAnswer.handle = none ∧
    ({ base with answers := [⟨some 4, [], none⟩] } : State).nextAnswer.handle = some 4 ∧ 4 ≤ base.cfg.maxSurfaces ∧
    base.liveSurface 4 = false ∧ ({ base with answers := [⟨some 1, [], none⟩] } : State).nextAnswer.handle = some 1 ∧
    base.liveSurface 1 = false ∧
    (withOps { base with answers := [⟨none, [], none⟩] } [1, 65535]).allocSurface = none ∧
    (withOps { base with answers := [⟨some 4, [], none⟩] } [1, 65535]).allocSurface = some 4 := by decide

/-- ScreateMakesASurface, SmpcreateMakesASample: every handle of a table of one handle is live. -/
theorem test_hyp_full_tables :
    let s := { busy with cfg := { cfg with surfacesLess1 := 0, samplesLess1 := 0 } }
    (∀ h, 1 ≤ h → h ≤ s.cfg.maxSurfaces → s.liveSurface h = true) ∧
    ∀ m, 1 ≤ m → m ≤ s.cfg.maxSamples → s.liveSample m = true := by
  refine ⟨fun h h1 h2 => ?_, fun m h1 h2 => ?_⟩
  · obtain rfl : h = 1 := Nat.le_antisymm h2 h1
    decide
  · obtain rfl : m = 1 := Nat.le_antisymm h2 h1
    decide

/-- SdestroyEndsASurface, SclearFillsASurface, SinfoReadsDimensions: a dead handle, handle 0, a live one; the byte range. -/
theorem test_hyp_surface :
    (withOps busy [5]).argN 0 ≠ 0 ∧ (withOps busy [5]).liveSurface 5 = false ∧ (withOps busy [0]).argN 0 = 0 ∧
    (withOps busy [1, 255]).liveSurface ((withOps busy [1, 255]).argN 0) = true ∧ (withOps busy [1, 255]).argN 1 ≤ 255 ∧
    255 < (withOps busy [1, 256]).argN 1 ∧ (busy.surface? 1).isSome := by decide

/-- SgetpixReadsAPixel, SputpixWritesAPixel: both ends of the coordinate and value ranges. -/
theorem test_hyp_pixel :
    let s := withOps busy [1, 65535, 0, 255]
    s.liveSurface (s.argN 0) = true ∧ s.argN 1 < 2 ^ 16 ∧ s.argN 2 < 2 ^ 16 ∧ s.argN 3 ≤ 255 ∧
    2 ^ 16 ≤ (withOps busy [1, 65536]).argN 1 ∧ 2 ^ 16 ≤ (withOps busy [1, 0, 65536]).argN 2 ∧
    255 < (withOps busy [1, 0, 0, 256]).argN 3 ∧ (withOps busy [0]).liveSurface 0 = false := by decide

/-- BlitMaskedVisitsEveryOffset, BlitStretchVisitsEveryOffset: dead handles, a coordinate out of range, a zero target, and
legal operands at the ends of their ranges, the source being the destination. -/
theorem test_hyp_blit :
    (withOps busy [1, 5]).liveSurface 5 = false ∧ (withOps busy [0, 1]).liveSurface 0 = false ∧
    (∃ k : Fin 10, 2 ≤ k.val ∧ k.val ≤ 7 ∧ 2 ^ 16 ≤ (withOps busy [1, 2, 0, 0, 0, 0, 0, 65536]).argN k) ∧
    MaskedLegal (withOps busy [1, 1, 65535, 0, 65535, 0, 65535, 0]) ∧
    (∃ k : Fin 10, 2 ≤ k.val ∧ 2 ^ 16 ≤ (withOps busy [1, 2, 0, 0, 0, 0, 0, 0, 0, 65536]).argN k) ∧
    (∀ k : Fin 10, 2 ≤ k.val → (withOps busy [1, 2, 0, 0, 2, 2, 0, 0, 0, 4]).argN k < 2 ^ 16) ∧
    (withOps busy [1, 2, 0, 0, 2, 2, 0, 0, 0, 4]).argN 8 = 0 ∧ (withOps busy [1, 2, 0, 0, 2, 2, 0, 0, 4, 0]).argN 9 = 0 ∧
    StretchLegal (withOps busy [1, 1, 65535, 0, 0, 65535, 0, 0, 65535, 1]) := by decide

/-- BlitOntoAnotherSurface: the rectangle is the whole destination; the last offset is in it. -/
theorem test_hyp_blit_other :
    let s := withOps busy [1, 2, 0, 1, 1, 1, 2, 2]
    let u := withOps busy [1, 2, 0, 0, 1, 1, 1, 1, 2, 2]
    (s.argN 0 ≠ s.argN 1 ∧ 1 ≤ s.width (s.argN 1) ∧ 1 ≤ s.height (s.argN 1) ∧ MaskedLegal s ∧
      s.argN 6 ≤ s.width (s.argN 1) ∧ s.argN 7 ≤ s.height (s.argN 1) ∧ 1 < s.argN 6 ∧ 1 < s.argN 7) ∧
    u.argN 0 ≠ u.argN 1 ∧ 1 ≤ u.width (u.argN 1) ∧ 1 ≤ u.height (u.argN 1) ∧ StretchLegal u ∧
    u.argN 8 ≤ u.width (u.argN 1) ∧ u.argN 9 ≤ u.height (u.argN 1) := by decide

/-- MaskedBlitLaws: an opaque source, a transparent source, and a source offset equal to the width. -/
theorem test_hyp_blit_laws :
    let s := withOps busy [1, 2, 2, 0, 1, 1, 2, 2]
    let z := withOps { busy with surfaces := [(1, surf 2 2 []), (2, surf 2 2 [8, 8, 8, 8])] } [1, 2, 0, 0, 0, 0, 2, 2]
    MaskedLegal s ∧ s.surfacesOk ∧
    (∀ x y, x < s.width (s.argN 0) → y < s.height (s.argN 0) → s.pixel (s.argN 0) x y ≠ 0) ∧
    s.argN 2 = s.width (s.argN 0) ∧ MaskedLegal z ∧ z.surfacesOk ∧
    ∀ x y, x < z.width (z.argN 0) → y < z.height (z.argN 0) → z.pixel (z.argN 0) x y = 0 := by
  have hs : ∀ x < 2, ∀ y < 2, busy.pixel 1 x y ≠ 0 := by decide
  have hz : ∀ x < 2, ∀ y < 2, (two (surf 2 2 []) (surf 2 2 [8, 8, 8, 8])).pixel 1 x y = 0 := by decide
  exact ⟨by decide, by decide, fun x y hx hy => hs x hx y hy, by decide, by decide, by decide, fun x y hx hy => hz x hx y hy⟩

/-- StretchAtRatioOneIsMasked, at nonzero offsets. -/
theorem test_hyp_ratio_one :
    let s := withOps busy [1, 2, 1, 1, 2, 2, 1, 0, 2, 2]
    let args := (withOps busy [1, 2, 1, 1, 1, 0, 2, 2]).args
    StretchLegal s ∧ s.argN 4 = s.argN 8 ∧ s.argN 5 = s.argN 9 ∧ args[0] = s.arg 0 ∧ args[1] = s.arg 1 ∧ args[2] = s.arg 2 ∧
    args[3] = s.arg 3 ∧ args[4] = s.arg 6 ∧ args[5] = s.arg 7 ∧ args[6] = s.arg 8 ∧ args[7] = s.arg 9 := by decide

/-- SmpcreateMakesASample: each legal depth and channel count, an illegal one of each, and the oracle's answers. -/
theorem test_hyp_smpcreate :
    (((withOps base [8, 2]).argN 0 = 8 ∨ (withOps base [8, 2]).argN 0 = 16) ∧
      ((withOps base [8, 2]).argN 1 = 1 ∨ (withOps base [8, 2]).argN 1 = 2)) ∧
    ((withOps base [16, 1]).argN 0 = 8 ∨ (withOps base [16, 1]).argN 0 = 16) ∧
    ¬((withOps base [12, 1]).argN 0 = 8 ∨ (withOps base [12, 1]).argN 0 = 16) ∧
    ¬((withOps base [8, 3]).argN 1 = 1 ∨ (withOps base [8, 3]).argN 1 = 2) ∧
    (withOps { base with answers := [⟨none, [], none⟩] } [8, 1]).nextAnswer.handle = none ∧
    ({ base with answers := [⟨some 4, [], none⟩] } : State).nextAnswer.handle = some 4 ∧ 4 ≤ base.cfg.maxSamples ∧
    base.liveSample 4 = false ∧ ({ base with answers := [⟨some 1, [], none⟩] } : State).nextAnswer.handle = some 1 ∧
    base.liveSample 1 = false ∧
    (withOps { base with answers := [⟨none, [], none⟩] } [8, 1]).allocSample = none ∧
    (withOps { base with answers := [⟨some 4, [], none⟩] } [8, 1]).allocSample = some 4 := by decide

/-- SmpdestroyEndsASample: a dead handle, a busy sample, handle 0, and a live sample no playing voice uses. -/
theorem test_hyp_smpdestroy :
    (withOps busy [9]).argN 0 ≠ 0 ∧ (withOps busy [9]).liveSample 9 = false ∧ (withOps busy [1]).liveSample 1 = true ∧
    (∃ v : Fin 32, v.val < busy.cfg.maxVoices ∧ busy.voices[v].playing = true ∧ busy.voices[v].sample = (withOps busy [1]).arg 0) ∧
    (withOps busy [0]).argN 0 = 0 ∧ (withOps ready [1]).liveSample 1 = true ∧
    ¬∃ v : Fin 32, v.val < ready.cfg.maxVoices ∧ ready.voices[v].playing = true ∧ ready.voices[v].sample = (withOps ready [1]).arg 0 := by
  decide

/-- SmpwriteWritesAByte, SmpreadReadsAByte, SmpinfoReadsMetadata: dead handles, the last byte and the one after it, the byte
range, and the field range. -/
theorem test_hyp_sample :
    (withOps busy [9]).liveSample 9 = false ∧ (busy.sample? 1).isSome ∧ (withOps busy [1, 99, 255]).argN 2 ≤ 255 ∧
    (withOps busy [1, 99]).argN 1 < sampleVC.size ∧ busy.sample? 1 = some sampleVC ∧
    busy.sampleSize 1 ≤ (withOps busy [1, 100]).argN 1 ∧ 255 < (withOps busy [1, 0, 256]).argN 2 ∧
    sampleVC.size ≤ (withOps busy [1, 100]).argN 1 ∧ (withOps busy [1, 6]).argN 1 < 7 ∧ 6 < (withOps busy [1, 7]).argN 1 := by
  decide

/-- PinitInitialisesThePool: each pool state, a capacity at the end of the range and beyond it, each answer of the backend, and
no backend. -/
theorem test_hyp_pinit :
    ready.poolState = .ready ∧ failed.poolState = .failed ∧ base.poolState = .uninit ∧
    base.cfg.maxVoices < (withOps base [33]).argN 0 ∧ (withOps base [32]).argN 0 ≤ base.cfg.maxVoices ∧
    ({ cfg with backendPresent := true } : Config).backendPresent = true ∧
    ({ base with answers := [⟨none, [], none⟩] } : State).nextAnswer.backendMask = none ∧
    ({ base with answers := [⟨none, [], some 0xD⟩] } : State).nextAnswer.backendMask = some 0xD ∧
    base.cfg.backendPresent = false := by decide

/-- VallocTakesTheLowestFreeVoice: each pool state; no sample, a live one, a dead one; slot 1 the lowest free; none free. -/
theorem test_hyp_valloc :
    base.poolState = .uninit ∧ failed.poolState = .failed ∧ ready.poolState = .ready ∧ (withOps ready [7]).argN 0 ≠ 0 ∧
    ready.liveSample 7 = false ∧ (withOps ready [0]).argN 0 = 0 ∧ ready.sample? 1 = some sampleVC ∧
    (1 : Fin 32).val < ready.capacity.toNat ∧ ready.freeMask.getLsbD (1 : Fin 32) = true ∧
    (∀ j : Fin 32, j < 1 → ready.freeMask.getLsbD j = false) ∧
    ∀ j : Fin 32, j.val < ({ ready with freeMask := 0 } : State).capacity.toNat →
      ({ ready with freeMask := 0 } : State).freeMask.getLsbD j = false := by decide

/-- PoolAndVoiceChecksComeFirst and the statements about voice commands: the guards of R82, and the last voice of the pool named by ARG0. -/
theorem test_hyp_voice :
    needsPool .valloc = true ∧ needsPool .vfree = true ∧ needsPool .vrampvol = true ∧ Instr.vrampvol ≠ .valloc ∧
    base.poolState = .uninit ∧ failed.poolState = .failed ∧ ready.poolState = .ready ∧
    ready.capacity.toNat ≤ (withOps ready [2]).argN 0 ∧
    ({ ready with availMask := 1 } : State).availMask.getLsbD ((withOps ready [1]).argN 0) = false ∧
    VoiceNamed (withOps ready [1]) 1 ∧ VoiceNamed (withOps playing [0]) 0 := by decide

/-- VstartStarts, StartProcedure: each guard, and a start. -/
theorem test_hyp_start :
    ready.freeMask.getLsbD (1 : Fin 32) = true ∧ ready.voices[1].sample = 0 ∧
    ({ ready with samples := [] } : State).liveSample ready.voices[0].sample.toNat = false ∧
    ({ ready with samples := [(1, { sampleVC with len := 0 })] } : State).sampleSize ready.voices[0].sample.toNat = 0 ∧
    ready.freeMask.getLsbD (0 : Fin 32) = false ∧ ready.sample? ready.voices[0].sample.toNat = some sampleVC ∧
    sampleVC.size ≠ 0 := by decide

/-- VsetposStoresOrRestarts, RateCommandsStoreAndRestart, VolumeCommandsStoreAndPush, VsetpanStoresAndPushes: a playing and a
stopped voice, position 0 and another, and a code at both sides of 255. -/
theorem test_hyp_voice_values :
    (withOps playing [0, 0]).voices[0].playing = true ∧ (withOps playing [0, 0]).arg 1 = 0 ∧
    (withOps ready [0, 0]).voices[0].playing = false ∧ (withOps playing [0, 1]).arg 1 ≠ 0 ∧
    (255 : Byte).toNat = (withOps playing [0, 255]).argN 1 ∧ 255 < (withOps playing [0, 256]).argN 1 ∧
    (255 : Byte).toNat = (withOps playing [0, 0, 255]).argN 2 ∧ 255 < (withOps playing [0, 0, 256]).argN 2 := by decide

/-- ByteLength: a stereo sample. -/
theorem test_hyp_bytelen : sampleM1.channels = .stereo := by decide

end Sys2Proof.Tests
end

/-! The reset state and the ranges of the parameters (00_scope.md R7, 10_state.md R35 and R36). -/

namespace Sys2Proof

/-! ### Ranges of the parameters (R7) -/

theorem Config.one_le_maxVoices (c : Config) : 1 ≤ c.maxVoices := Nat.le_add_left 1 _

theorem Config.maxVoices_le (c : Config) : c.maxVoices ≤ 32 := c.voicesLess1.isLt

theorem Config.one_le_maxSurfaces (c : Config) : 1 ≤ c.maxSurfaces := Nat.le_add_left 1 _

theorem Config.one_le_maxSamples (c : Config) : 1 ≤ c.maxSamples := Nat.le_add_left 1 _

theorem Config.blkBase_mod (c : Config) : c.blkBase % 4096 = 0 := Nat.mul_mod_left c.blkPage 4096

end Sys2Proof

namespace Sys2Proof.Machine

/-! ### The parts of the invariant after reset (R35, R36) -/

theorem reset_surfacesOk (c : Config) : (State.resetWith c).surfacesOk := by
  obtain ⟨hrising, -⟩ := reset_memoryWf c
  exact ⟨hrising, fun _ h => absurd h List.not_mem_nil⟩

theorem reset_samplesOk (c : Config) : (State.resetWith c).samplesOk := by
  obtain ⟨-, hrising, -⟩ := reset_memoryWf c
  exact ⟨hrising, fun _ h => absurd h List.not_mem_nil⟩

/-- Capacity and both masks are 0, so no mask bit is set. -/
theorem reset_poolOk (c : Config) : (State.resetWith c).poolOk := by
  have hmask : ∀ v : Fin 32, (0 : Word).getLsbD v ≠ true := by simp
  exact ⟨Nat.zero_le _, fun _ => ⟨rfl, rfl, rfl⟩, fun v h => absurd h (hmask v), fun v h => absurd h (hmask v)⟩

/-- Every voice of the reset state is the initial one (R35). -/
theorem reset_voice (c : Config) (v : Fin 32) : (State.resetWith c).voice v = Voice.initial := by
  simp [State.voice, State.resetWith]

/-- No voice plays after reset. -/
theorem reset_voicesOk (c : Config) : (State.resetWith c).voicesOk := by
  intro v hplay
  rw [reset_voice] at hplay
  cases hplay

/-- FAULT and FAULT_CMD are clear, and STATUS is OK, which is no fault. -/
theorem reset_faultOk (c : Config) : (State.resetWith c).faultOk :=
  ⟨fun _ => rfl, fun h => nomatch h⟩

theorem reset_inv (c : Config) : (State.resetWith c).Inv :=
  ⟨reset_surfacesOk c, reset_samplesOk c, reset_poolOk c, reset_voicesOk c, reset_faultOk c⟩

/-- Settles O26: each part of the invariant holds of the reset state; the ranges are those of the fields of `Config`, and the
defaults those of `Config.machine`. -/
theorem resetMeetsTheInvariant : Obligations.ResetMeetsTheInvariant :=
  ⟨reset_inv, reset_inv Config.machine,
    fun c => ⟨c.one_le_maxVoices, c.maxVoices_le, c.one_le_maxSurfaces, c.one_le_maxSamples, c.blkBase_mod⟩,
    rfl, rfl⟩

end Sys2Proof.Machine

/-! What one command can write: which tables, which voice and which masks (10_state.md R22 to R33), as lemmas about `effectOf`
that the statements about every command and every step share. -/

namespace Sys2Proof.Machine

/-! ### The tables -/

/-- The commands that may write the surface table (R37). -/
def writesSurfaces : Instr → Bool
  | .screate | .sdestroy | .sclear | .sputpix | .blitMasked | .blitStretch => true
  | _ => false

/-- The commands that may write the sample table (R37). -/
def writesSamples : Instr → Bool
  | .smpcreate | .smpdestroy | .smpwrite => true
  | _ => false

/-- What PINIT can do once its checks pass (R83): the backend fails, or the pool is READY with the records reset. -/
theorem initPool_cases (s : State) (cap : Nat) :
    s.initPool cap = { (s.emit .init).asking with poolState := .failed }.complete .initFail 0 ∨
      ∃ u m, (u = s ∨ u = (s.emit .init).asking) ∧ s.initPool cap = (u.readyPool cap m).complete .ok 0 := by
  unfold State.initPool
  split
  · split
    · exact .inl rfl
    · exact .inr ⟨_, _, .inr rfl, rfl⟩
  · exact .inr ⟨_, _, .inl rfl, rfl⟩

theorem initPool_tables_alone (s : State) (cap : Nat) :
    (s.initPool cap).surfaces = s.surfaces ∧ (s.initPool cap).samples = s.samples := by
  rcases initPool_cases s cap with h | ⟨u, m, rfl | rfl, h⟩ <;> rw [h] <;> exact ⟨rfl, rfl⟩

theorem effect_surfaces_alone {i : Instr} (s : State) (hi : writesSurfaces i = false) :
    (effectOf s i).surfaces = s.surfaces := by
  cases hn : needsPool i with
  | true => exact (effect_tables_alone s hn).1
  | false =>
  cases i <;> simp only [needsPool, Bool.true_eq_false] at hn <;> simp only [writesSurfaces, Bool.true_eq_false] at hi
  case smpwrite => simp only [effectOf]; rw [setSampleByte_rest]; rfl
  case pinit => exact (initPool_tables_alone s _).1
  all_goals (simp only [effectOf]; (repeat' split) <;> rfl)

theorem effect_samples_alone {i : Instr} (s : State) (hi : writesSamples i = false) :
    (effectOf s i).samples = s.samples := by
  cases hn : needsPool i with
  | true => exact (effect_tables_alone s hn).2.1
  | false =>
  cases i <;> simp only [needsPool, Bool.true_eq_false] at hn <;> simp only [writesSamples, Bool.true_eq_false] at hi
  case sclear => simp only [effectOf]; rw [(fillSurface_painted _ _ _).rest]; rfl
  case sputpix => simp only [effectOf]; rw [(setPixel_painted _ _ _ _ _).rest]; rfl
  case blitMasked => simp only [effectOf]; rw [(blit_painted _ _ _ _ _ _ _ _ _).rest]; rfl
  case blitStretch => simp only [effectOf]; rw [(blit_painted _ _ _ _ _ _ _ _ _).rest]; rfl
  case pinit => exact (initPool_tables_alone s _).2
  all_goals (simp only [effectOf]; (repeat' split) <;> rfl)

/-- Read after a data write (R79): the named sample has new data and its metadata, every other is as before. -/
theorem State.sample?_setSampleByte (s : State) (m i : Nat) (v : Byte) (g : Nat) :
    (s.setSampleByte m i v).sample? g =
      if g = m then (s.sample? m).map fun M => { M with data := Memory.write M.data i v } else s.sample? g := by
  cases hM : s.sample? m with
  | none =>
    by_cases hg : g = m
    · subst hg; simp [State.setSampleByte, hM]
    · simp [State.setSampleByte, hM, hg]
  | some M => rw [State.setSampleByte_eq hM, State.sample?_putSample s (State.sample?_ne_zero hM)]; rfl

/-! ### One voice -/

/-- `t` is `s` but for the record of voice `v` and the log; the voice keeps its sample, and it plays only if it did or passes
the guards of `do_start` (R86). -/
structure ActsOn (v : Fin 32) (s t : State) : Prop extends VoiceOnly s t where
  others : ∀ u, u ≠ v → t.voice u = s.voice u
  sample : (t.voice v).sample = (s.voice v).sample
  starts : (t.voice v).playing = true →
    (s.voice v).playing = true ∨ s.isFree v = false ∧ s.playable (s.voice v).sample.toNat = true

theorem VoiceOnly.isFree {s t : State} (h : VoiceOnly s t) (v : Fin 32) : t.isFree v = s.isFree v := by
  rw [h.rest]; rfl

theorem VoiceOnly.playable {s t : State} (h : VoiceOnly s t) (m : Nat) : t.playable m = s.playable m := by
  rw [h.rest]; rfl

theorem ActsOn.refl (v : Fin 32) (s : State) : ActsOn v s s := ⟨VoiceOnly.refl s, fun _ _ => rfl, rfl, .inl⟩

theorem ActsOn.trans {v : Fin 32} {s t u : State} (a : ActsOn v s t) (b : ActsOn v t u) : ActsOn v s u where
  toVoiceOnly := a.toVoiceOnly.trans b.toVoiceOnly
  others w hw := (b.others w hw).trans (a.others w hw)
  sample := b.sample.trans a.sample
  starts hu := by
    have h := b.starts hu
    rw [a.isFree, a.sample, a.playable] at h
    exact h.elim a.starts .inr

theorem setVoice_actsOn {s : State} {v : Fin 32} {V : Voice} (hm : V.sample = (s.voice v).sample)
    (hp : V.playing = true →
      (s.voice v).playing = true ∨ s.isFree v = false ∧ s.playable (s.voice v).sample.toNat = true) :
    ActsOn v s (s.setVoice v V) where
  toVoiceOnly := setVoice_voiceOnly s v V
  others u hu := by rw [State.voice_setVoice, if_neg hu]
  sample := by rw [State.voice_setVoice, if_pos rfl, hm]
  starts := by rw [State.voice_setVoice, if_pos rfl]; exact hp

theorem emit_actsOn (s : State) (v : Fin 32) (e : BackendCmd) : ActsOn v s (s.emit e) :=
  ⟨emit_voiceOnly s e, fun _ _ => rfl, rfl, .inl⟩

theorem startVoice_actsOn (s : State) (v : Fin 32) : ActsOn v s (s.startVoice v) := by
  rcases startVoice_cases s v with h | ⟨hf, hp, e, h⟩ <;> rw [h]
  · exact ActsOn.refl v s
  · exact (setVoice_actsOn (V := { s.voice v with playing := true }) rfl fun _ => .inr ⟨hf, hp⟩).trans
      (emit_actsOn _ v e)

theorem pushVolPan_actsOn (s : State) (v : Fin 32) : ActsOn v s (s.pushVolPan v) := by
  unfold State.pushVolPan
  split
  · exact emit_actsOn s v _
  · exact ActsOn.refl v s

theorem setRate_actsOn (s : State) (v : Fin 32) (r : Word) : ActsOn v s (s.setRate v r) := by
  have hset : ActsOn v s (s.setVoice v { s.voice v with rate := r }) := setVoice_actsOn rfl .inl
  unfold State.setRate
  split
  · exact hset.trans (startVoice_actsOn _ v)
  · exact hset

theorem setPosition_actsOn (s : State) (v : Fin 32) (p : Word) : ActsOn v s (s.setPosition v p) := by
  have hset : ActsOn v s (s.setVoice v { s.voice v with position := p }) := setVoice_actsOn rfl .inl
  unfold State.setPosition
  split
  · exact hset.trans (startVoice_actsOn _ v)
  · exact hset

theorem setVol_actsOn (s : State) (v : Fin 32) (c : Byte) : ActsOn v s (s.setVol v c) :=
  (setVoice_actsOn (V := { s.voice v with vol := c }) rfl .inl).trans (pushVolPan_actsOn _ v)

theorem setPan_actsOn (s : State) (v : Fin 32) (c : Byte) : ActsOn v s (s.setPan v c) :=
  (setVoice_actsOn (V := { s.voice v with pan := c }) rfl .inl).trans (pushVolPan_actsOn _ v)

/-- The first part of VSTOP and VFREE (R85, R91): SILENCE, and playing cleared. -/
def State.silenced (s : State) (v : Fin 32) : State :=
  (s.emit (.silence v)).setVoice v { s.voice v with playing := false }

theorem silenced_actsOn (s : State) (v : Fin 32) : ActsOn v s (s.silenced v) :=
  (emit_actsOn s v _).trans (setVoice_actsOn rfl nofun)

theorem silenced_playing (s : State) (v : Fin 32) : ((s.silenced v).voice v).playing = false := by
  rw [State.silenced, State.voice_setVoice, if_pos rfl]

/-- A voice control command acts on the voice ARG0 names and completes OK with RESULT 0. -/
theorem effect_actsOn {i : Instr} (s : State) (hn : needsPool i = true) (ha : i ≠ .valloc) (hf : i ≠ .vfree) :
    ∃ t, ActsOn s.voiceArg s t ∧ effectOf s i = t.complete .ok 0 := by
  cases i <;> simp only [needsPool, Bool.false_eq_true] at hn
  case valloc => exact absurd rfl ha
  case vfree => exact absurd rfl hf
  case vplaymode =>
    exact ⟨_, (setVoice_actsOn (V := { s.voice s.voiceArg with loop := (s.arg 1).getLsbD 0 }) rfl .inl).trans
      (emit_actsOn _ _ _), rfl⟩
  case vstart => exact ⟨_, startVoice_actsOn s _, rfl⟩
  case vstop => exact ⟨_, silenced_actsOn s _, rfl⟩
  case vsetpos => exact ⟨_, setPosition_actsOn s _ _, rfl⟩
  case vsetfreq => exact ⟨_, setRate_actsOn s _ _, rfl⟩
  case vsetvol => exact ⟨_, setVol_actsOn s _ _, rfl⟩
  case vsetpan => exact ⟨_, setPan_actsOn s _ _, rfl⟩
  case vsweepfreq => exact ⟨_, setRate_actsOn s _ _, rfl⟩
  case vrampvol => exact ⟨_, setVol_actsOn s _ _, rfl⟩

theorem effect_vfree (s : State) :
    effectOf s .vfree = ((s.silenced s.voiceArg).markFree s.voiceArg).complete .ok 0 := rfl

/-! ### Checks of the pool commands -/

theorem checksOf_voice {i : Instr} (s : State) (hn : needsPool i = true) (ha : i ≠ .valloc) :
    ∃ rest, checksOf s i = voiceChecks s ++ rest := by
  cases i <;> simp only [needsPool, Bool.false_eq_true] at hn
  case valloc => exact absurd rfl ha
  case vsetvol => exact ⟨[byteCheck s 1], rfl⟩
  case vsetpan => exact ⟨[byteCheck s 1], rfl⟩
  case vrampvol => exact ⟨[byteCheck s 2], rfl⟩
  all_goals exact ⟨[], (List.append_nil _).symm⟩

/-- The checks of R82 passed, ARG0 names a reported voice below CAPACITY. -/
theorem voiceArg_valid {i : Instr} {s : State} (hn : needsPool i = true) (ha : i ≠ .valloc)
    (hc : firstFault (checksOf s i) = none) :
    s.voiceArg.val < s.capacity.toNat ∧ s.availMask.getLsbD s.voiceArg = true := by
  obtain ⟨rest, hl⟩ := checksOf_voice s hn ha
  rw [hl, firstFault_eq_none] at hc
  have hv : s.validVoice (s.argN 0) = true := hc (voiceCheck s 0) (by simp [voiceChecks])
  obtain ⟨h32, hcap, havail⟩ := State.validVoice_lt hv
  rw [State.voiceArg, voiceSlot_val h32]
  exact ⟨hcap, havail⟩

/-- The pool checks passed, the pool is READY (R82). -/
theorem poolState_ready {i : Instr} {s : State} (hn : needsPool i = true) (hc : firstFault (checksOf s i) = none) :
    s.poolState = .ready := by
  have hl : ∃ rest, checksOf s i = poolChecks s ++ rest := by
    by_cases ha : i = .valloc
    · exact ⟨[smp0Check s 0], by rw [ha]; rfl⟩
    · obtain ⟨rest, hl⟩ := checksOf_voice s hn ha
      exact ⟨_, by rw [hl, voiceChecks, List.append_assoc]⟩
  obtain ⟨rest, hl⟩ := hl
  rw [hl, firstFault_append] at hc
  cases hp : s.poolState <;> simp [poolChecks, hp] at hc ⊢

/-! ### FREE_MASK -/

theorem getLsbD_slotBit (v u : Fin 32) : (1#32 <<< v.val).getLsbD u = decide (u = v) := by
  rw [← BitVec.twoPow_eq, BitVec.getLsbD_twoPow]
  simp [Fin.ext_iff, eq_comm]

theorem State.isFree_markFree (s : State) (v u : Fin 32) :
    (s.markFree v).isFree u = (s.isFree u || decide (u = v)) := by
  rw [State.isFree, State.markFree, BitVec.getLsbD_or, getLsbD_slotBit]
  rfl

theorem State.isFree_markUsed (s : State) (v u : Fin 32) :
    (s.markUsed v).isFree u = (s.isFree u && !decide (u = v)) := by
  rw [State.isFree, State.markUsed, BitVec.getLsbD_and, BitVec.getLsbD_not, getLsbD_slotBit]
  simp [State.isFree]

/-- The slot VALLOC takes is free and below CAPACITY (R84). -/
theorem lowestFree_some {s : State} {n : Nat} (h : s.lowestFree = some n) :
    (voiceSlot n).val < s.capacity.toNat ∧ s.isFree (voiceSlot n) = true := by
  have hfree : s.freeMask.getLsbD n = true := List.find?_some h
  have hcap : n < s.capacity.toNat := List.mem_range.mp (List.mem_of_find?_eq_some h)
  rw [State.isFree, voiceSlot_val (BitVec.lt_of_getLsbD hfree)]
  exact ⟨hcap, hfree⟩

end Sys2Proof.Machine

/-! Every step keeps the invariant of the machine: each of its five parts is kept by every effect, and a fault keeps all. -/

namespace Sys2Proof.Machine

/-! ### Surfaces (R29, R30) -/

theorem State.surfacesOk.entry {s : State} (hs : s.surfacesOk) {h : Nat} {S : Surface} (hS : s.surface? h = some S) :
    1 ≤ h ∧ h ≤ s.cfg.maxSurfaces ∧ S.wf := hs.2 _ (State.surface?_mem hS)

theorem putSurface_surfacesOk {s : State} (hs : s.surfacesOk) {h : Nat} {S : Surface} (h1 : 1 ≤ h)
    (hmax : h ≤ s.cfg.maxSurfaces) (hS : S.wf) : (s.putSurface h S).surfacesOk :=
  ⟨Table.rising_insert hs.1 h S, fun _ he => (Table.mem_insert he).elim (fun e => e ▸ ⟨h1, hmax, hS⟩) (hs.2 _)⟩

theorem dropSurface_surfacesOk {s : State} (hs : s.surfacesOk) (h : Nat) : (s.dropSurface h).surfacesOk :=
  ⟨Table.rising_erase hs.1 h, fun _ he => hs.2 _ (Table.mem_erase he)⟩

/-- A pixel inside a surface lies inside its buffer (R42). -/
theorem pixelAddr_lt {S : Surface} {x y : Nat} (hx : x < S.w.toNat) (hy : y < S.h.toNat) :
    y * S.w.toNat + x < S.w.toNat * S.h.toNat :=
  calc y * S.w.toNat + x < (y + 1) * S.w.toNat := by rw [Nat.succ_mul]; omega
    _ ≤ S.h.toNat * S.w.toNat := Nat.mul_le_mul_right _ hy
    _ = S.w.toNat * S.h.toNat := Nat.mul_comm _ _

theorem setPixel_surfacesOk {s : State} (hs : s.surfacesOk) {h x y : Nat} (hx : s.liveSurface h = true → x < s.width h)
    (hy : s.liveSurface h = true → y < s.height h) (v : Byte) : (s.setPixel h x y v).surfacesOk := by
  cases hS : s.surface? h with
  | none => simpa only [State.setPixel, hS] using hs
  | some S =>
    have hlive : s.liveSurface h = true := State.liveSurface_iff.mpr ⟨S, hS⟩
    rw [State.width_eq hS] at hx
    rw [State.height_eq hS] at hy
    obtain ⟨h1, hmax, hw, hh, hwf, hin⟩ := hs.entry hS
    rw [State.setPixel_eq hS]
    exact putSurface_surfacesOk hs h1 hmax
      ⟨hw, hh, Memory.wf_write hwf _ v, Memory.within_write hin (pixelAddr_lt (hx hlive) (hy hlive)) v⟩

/-- A live surface has a column and a row, so a coordinate taken modulo its dimensions lies in it (R30, R44). -/
theorem setPixel_mod_surfacesOk {s : State} (hs : s.surfacesOk) (h x y : Nat) (v : Byte) :
    (s.setPixel h (x % s.width h) (y % s.height h) v).surfacesOk := by
  refine setPixel_surfacesOk hs (fun hl => Nat.mod_lt _ ?_) (fun hl => Nat.mod_lt _ ?_) v <;>
    obtain ⟨S, hS⟩ := State.liveSurface_iff.mp hl <;> obtain ⟨-, -, hw, hh, -⟩ := hs.entry hS
  · rw [State.width_eq hS]; exact hw
  · rw [State.height_eq hS]; exact hh

theorem blit_surfacesOk {s : State} (hs : s.surfacesOk) (src dst : Nat) (sx sy : Nat → Nat) (dstX dstY w h : Nat) :
    (s.blit src dst sx sy dstX dstY w h).surfacesOk := by
  refine forUpto_keeps hs fun y t _ ht => forUpto_keeps ht fun x u _ hu => ?_
  unfold State.copyPixel
  split
  · exact hu
  · exact setPixel_mod_surfacesOk hu _ _ _ _

theorem fillSurface_surfacesOk {s : State} (hs : s.surfacesOk) (h : Nat) (c : Byte) : (s.fillSurface h c).surfacesOk := by
  have hkeep : Painted h s (s.fillSurface h c) ∧ (s.fillSurface h c).surfacesOk := by
    refine forUpto_keeps (P := fun u => Painted h s u ∧ u.surfacesOk) ⟨Painted.refl h s, hs⟩ fun y t hy ht =>
      forUpto_keeps (P := fun u => Painted h s u ∧ u.surfacesOk) ht fun x u hx hu => ?_
    obtain ⟨hpaint, hok⟩ := hu
    refine ⟨hpaint.trans (setPixel_painted _ _ _ _ _), setPixel_surfacesOk hok (fun _ => ?_) (fun _ => ?_) c⟩
    · rw [hpaint.width, ← ht.1.width]; exact hx
    · rw [hpaint.height]; exact hy
  exact hkeep.2

/-- The dimensions a passed `dim` check admits fit their 16 bits (R57). -/
theorem newSurface_wf {w h : Nat} (hw : 1 ≤ w ∧ w ≤ 65535) (hh : 1 ≤ h ∧ h ≤ 65535) (draw : List Host.Cell) :
    Surface.wf { w := BitVec.ofNat 16 w, h := BitVec.ofNat 16 h
                 pix := Memory.ofDraw ((BitVec.ofNat 16 w).toNat * (BitVec.ofNat 16 h).toNat) draw } := by
  refine ⟨?_, ?_, Memory.wf_ofDraw _ _, Memory.within_ofDraw _ _⟩
  · show 1 ≤ (BitVec.ofNat 16 w).toNat
    rw [BitVec.toNat_ofNat]; omega
  · show 1 ≤ (BitVec.ofNat 16 h).toNat
    rw [BitVec.toNat_ofNat]; omega

theorem effect_surfacesOk {i : Instr} {s : State} (hs : s.surfacesOk) (hc : firstFault (checksOf s i) = none) :
    (effectOf s i).surfacesOk := by
  cases hw : writesSurfaces i with
  | false =>
    unfold State.surfacesOk
    rw [effect_surfaces_alone s hw, (effect_untouched i s).cfg]
    exact hs
  | true =>
    cases i <;> simp only [writesSurfaces, Bool.false_eq_true] at hw
    case screate =>
      rw [firstFault_eq_none] at hc
      have hdim0 : 1 ≤ s.argN 0 ∧ s.argN 0 ≤ 65535 := by simpa [dimCheck] using hc (dimCheck s 0) (by simp [checksOf])
      have hdim1 : 1 ≤ s.argN 1 ∧ s.argN 1 ≤ 65535 := by simpa [dimCheck] using hc (dimCheck s 1) (by simp [checksOf])
      cases ha : s.allocSurface with
      | none => simp only [effectOf, ha]; exact hs
      | some r =>
        obtain ⟨h1, hmax, -⟩ := admittedHandle_some ha
        simp only [effectOf, ha]
        exact putSurface_surfacesOk (s := s.asking) hs h1 hmax (newSurface_wf hdim0 hdim1 _)
    case sdestroy =>
      simp only [effectOf]
      split
      · exact hs
      · exact dropSurface_surfacesOk hs _
    case sclear => exact fillSurface_surfacesOk hs _ _
    case sputpix => exact setPixel_mod_surfacesOk hs _ _ _ _
    case blitMasked => exact blit_surfacesOk hs _ _ _ _ _ _ _ _
    case blitStretch => exact blit_surfacesOk hs _ _ _ _ _ _ _ _

/-! ### Samples (R31, R32) -/

theorem putSample_samplesOk {s : State} (hs : s.samplesOk) {m : Nat} {M : Sample} (h1 : 1 ≤ m)
    (hmax : m ≤ s.cfg.maxSamples) (hM : M.wf) : (s.putSample m M).samplesOk :=
  ⟨Table.rising_insert hs.1 m M, fun _ he => (Table.mem_insert he).elim (fun e => e ▸ ⟨h1, hmax, hM⟩) (hs.2 _)⟩

theorem dropSample_samplesOk {s : State} (hs : s.samplesOk) (m : Nat) : (s.dropSample m).samplesOk :=
  ⟨Table.rising_erase hs.1 m, fun _ he => hs.2 _ (Table.mem_erase he)⟩

theorem newSample_wf (bits : Depth) (channels : Channels) (rate len : Word) (draw : List Host.Cell) :
    (newSample bits channels rate len draw).wf :=
  ⟨Memory.wf_ofDraw _ _, Memory.within_ofDraw _ _, rfl, rfl, rfl⟩

theorem setSampleByte_samplesOk {s : State} (hs : s.samplesOk) {m i : Nat} (hi : i < s.sampleSize m) (v : Byte) :
    (s.setSampleByte m i v).samplesOk := by
  cases hM : s.sample? m with
  | none => simpa only [State.setSampleByte, hM] using hs
  | some M =>
    rw [State.sampleSize, hM] at hi
    obtain ⟨h1, hmax, hwf, hin, hmeta⟩ := hs.2 _ (State.sample?_mem hM)
    rw [State.setSampleByte_eq hM]
    exact putSample_samplesOk hs h1 hmax ⟨Memory.wf_write hwf _ v, Memory.within_write hin hi v, hmeta⟩

theorem effect_samplesOk {i : Instr} {s : State} (hs : s.samplesOk) (hc : firstFault (checksOf s i) = none) :
    (effectOf s i).samplesOk := by
  cases hw : writesSamples i with
  | false =>
    unfold State.samplesOk
    rw [effect_samples_alone s hw, (effect_untouched i s).cfg]
    exact hs
  | true =>
    cases i <;> simp only [writesSamples, Bool.false_eq_true] at hw
    case smpcreate =>
      cases ha : s.allocSample with
      | none => simp only [effectOf, ha]; exact hs
      | some r =>
        obtain ⟨h1, hmax, -⟩ := admittedHandle_some ha
        simp only [effectOf, ha]
        exact putSample_samplesOk (s := s.asking) hs h1 hmax (newSample_wf _ _ _ _ _)
    case smpdestroy =>
      simp only [effectOf]
      split
      · exact hs
      · exact dropSample_samplesOk hs _
    case smpwrite =>
      rw [firstFault_eq_none] at hc
      have hoff : s.argN 1 < s.sampleSize (s.argN 0) := by
        simpa [offsetCheck] using hc (offsetCheck s) (by simp [checksOf])
      exact setSampleByte_samplesOk hs hoff _

/-! ### The pool registers (R22 to R24) -/

theorem readyPool_poolOk (s : State) {cap : Nat} (hcap : cap ≤ s.cfg.maxVoices) (m : Word) :
    (s.readyPool cap m).poolOk := by
  have hnum : (BitVec.ofNat 6 cap).toNat = cap := by
    have := s.cfg.maxVoices_le
    rw [BitVec.toNat_ofNat]; omega
  refine ⟨?_, fun h => absurd rfl h, fun v hv => ?_, fun _ hv => hv⟩
  · rw [State.readyPool_capacity, hnum]; exact hcap
  · rw [State.readyPool_availMask, getLsbD_lowMask, Bool.and_eq_true, decide_eq_true_eq] at hv
    rw [State.readyPool_capacity, hnum]; exact hv.2

/-- The pool commands write FREE_MASK alone of the pool registers, in a READY pool, and set bits of AVAIL_MASK only. -/
theorem effect_freeMask {i : Instr} {s : State} (hs : s.poolOk) (hn : needsPool i = true)
    (hc : firstFault (checksOf s i) = none) (v : Fin 32) (hv : (effectOf s i).isFree v = true) :
    s.availMask.getLsbD v = true := by
  obtain ⟨-, -, -, hfree⟩ := hs
  by_cases ha : i = .valloc
  · subst ha
    cases hl : s.lowestFree with
    | none => simp only [effectOf, hl] at hv; exact hfree v hv
    | some n =>
      simp only [effectOf, hl] at hv
      have hv : (s.markUsed (voiceSlot n)).isFree v = true := hv
      rw [State.isFree_markUsed, Bool.and_eq_true] at hv
      exact hfree v hv.1
  by_cases hf : i = .vfree
  · subst hf
    have hv : ((s.silenced s.voiceArg).markFree s.voiceArg).isFree v = true := hv
    rw [State.isFree_markFree, (silenced_actsOn s s.voiceArg).isFree, Bool.or_eq_true, decide_eq_true_eq] at hv
    rcases hv with hv | rfl
    · exact hfree v hv
    · exact (voiceArg_valid hn ha hc).2
  · obtain ⟨t, ht, he⟩ := effect_actsOn s hn ha hf
    rw [he] at hv
    exact hfree v ((ht.isFree v).symm.trans hv)

theorem effect_poolOk {i : Instr} {s : State} (hs : s.poolOk) (hc : firstFault (checksOf s i) = none) :
    (effectOf s i).poolOk := by
  have hcfg := (effect_untouched i s).cfg
  cases hn : needsPool i with
  | true =>
    obtain ⟨-, -, -, -, hpool, hcap, havail⟩ := effect_tables_alone s hn
    have hfree := effect_freeMask hs hn hc
    obtain ⟨hmax, -, hlow, -⟩ := hs
    unfold State.poolOk
    rw [hpool, hcap, havail, hcfg]
    exact ⟨hmax, fun h => absurd (poolState_ready hn hc) h, hlow, hfree⟩
  | false =>
    by_cases hp : i = .pinit
    · subst hp
      have hcap : s.argN 0 ≤ s.cfg.maxVoices := by
        rw [firstFault_eq_none] at hc
        simpa [capCheck] using hc (capCheck s 0) (by simp [checksOf])
      have hnot : s.poolState ≠ .ready := by
        rw [firstFault_eq_none] at hc
        simpa using hc (decide (s.poolState ≠ .ready), .badState) (by simp [checksOf])
      rcases initPool_cases s (s.argN 0) with h | ⟨u, m, hu, h⟩ <;> rw [effectOf, h]
      · obtain ⟨hmax, hzero, hlow, hfree⟩ := hs
        exact ⟨hmax, fun _ => hzero hnot, hlow, hfree⟩
      · exact readyPool_poolOk u (by rcases hu with rfl | rfl <;> exact hcap) m
    · obtain ⟨hpool, hcap, hfree, havail, -⟩ := effect_pool_alone s hn hp
      unfold State.poolOk
      rw [hpool, hcap, hfree, havail, hcfg]
      exact hs

/-! ### The voices (R26, R36) -/

theorem ActsOn.voicesOk {v : Fin 32} {s t : State} (h : ActsOn v s t) (hs : s.voicesOk)
    (hv : s.availMask.getLsbD v = true) : t.voicesOk := by
  intro u hu
  have havail : t.availMask = s.availMask := by rw [h.rest]
  rw [havail, h.isFree, h.playable]
  by_cases huv : u = v
  · subst huv
    rw [h.sample]
    rcases h.starts hu with hp | hp
    · exact hs u hp
    · exact ⟨hv, hp⟩
  · rw [h.others u huv] at hu ⊢
    exact hs u hu

/-- VFREE: the freed voice is silent, and no other bit of FREE_MASK changed (R85). -/
theorem markFree_voicesOk {s : State} (hs : s.voicesOk) {v : Fin 32} (hv : (s.voice v).playing = false) :
    (s.markFree v).voicesOk := by
  intro u hu
  have huv : u ≠ v := by rintro rfl; exact Bool.false_ne_true (hv.symm.trans hu)
  obtain ⟨havail, hfree, hplay⟩ := hs u hu
  exact ⟨havail, by rw [State.isFree_markFree, hfree, decide_eq_false huv]; rfl, hplay⟩

/-- VALLOC: the voice taken is silent, and FREE_MASK only loses its bit (R84). -/
theorem markUsed_setVoice_voicesOk {s : State} (hs : s.voicesOk) (v : Fin 32) {V : Voice} (hV : V.playing = false) :
    ((s.markUsed v).setVoice v V).voicesOk := by
  intro u hu
  by_cases huv : u = v
  · rw [State.voice_setVoice, if_pos huv, hV] at hu
    cases hu
  · rw [State.voice_setVoice, if_neg huv] at hu ⊢
    obtain ⟨havail, hfree, hplay⟩ := hs u hu
    exact ⟨havail, (State.isFree_markUsed s v u).trans (by rw [hfree]; rfl), hplay⟩

theorem readyPool_voicesOk (s : State) (cap : Nat) (m : Word) : (s.readyPool cap m).voicesOk := by
  intro v hv
  simp [State.voice, Voice.initial] at hv

theorem State.playable_congr {s t : State} {m : Nat} (h : t.sample? m = s.sample? m) : t.playable m = s.playable m := by
  rw [State.playable, h]; rfl

/-- A write of sample data leaves every size (R32). -/
theorem playable_setSampleByte (s : State) (m i : Nat) (v : Byte) (g : Nat) :
    (s.setSampleByte m i v).playable g = s.playable g := by
  by_cases hg : g = m
  · unfold State.playable
    rw [State.sample?_setSampleByte, if_pos hg, hg]
    cases s.sample? m <;> rfl
  · exact State.playable_congr (by rw [State.sample?_setSampleByte, if_neg hg])

/-- SMPDESTROY's last check (R78): no voice below `MAX_VOICES` plays a sample that is not busy. -/
theorem sampleBusy_of_playing {s : State} {v : Fin 32} (hv : v.val < s.cfg.maxVoices)
    (hp : (s.voice v).playing = true) : s.sampleBusy (s.voice v).sample.toNat = true := by
  rw [State.sampleBusy, List.any_eq_true]
  refine ⟨v.val, List.mem_range.mpr hv, ?_⟩
  rw [voiceSlot_eq rfl, hp, decide_eq_true rfl]
  rfl

/-- The sample of a playing voice stays live and not empty: a new sample has another handle, a write keeps the size, and the
sample is busy, so it is not destroyed (R77 to R79). -/
theorem effect_playable {i : Instr} {s : State} (hpool : s.poolOk) (hs : s.voicesOk)
    (hc : firstFault (checksOf s i) = none) {v : Fin 32} (hv : (s.voice v).playing = true) :
    (effectOf s i).playable (s.voice v).sample.toNat = true := by
  obtain ⟨havail, -, hplay⟩ := hs v hv
  cases hw : writesSamples i with
  | false => rw [State.playable_congr (State.sample?_congr (effect_samples_alone s hw) _)]; exact hplay
  | true =>
    cases i <;> simp only [writesSamples, Bool.false_eq_true] at hw
    case smpcreate =>
      cases ha : s.allocSample with
      | none => simp only [effectOf, ha]; exact hplay
      | some r =>
        obtain ⟨h1, -, hdead⟩ := admittedHandle_some ha
        have hne : (s.voice v).sample.toNat ≠ r := by
          intro h
          rw [h, State.playable, State.liveSample_false.mp hdead] at hplay
          cases hplay
        simp only [effectOf, ha]
        refine (State.playable_congr ?_).trans hplay
        exact (State.sample?_putSample s.asking (Nat.ne_of_gt h1) _ _).trans (if_neg hne)
    case smpdestroy =>
      simp only [effectOf]
      split
      · exact hplay
      · rename_i h0
        rw [firstFault_eq_none] at hc
        have hidle : s.sampleBusy (s.argN 0) = false := by
          simpa [h0] using hc (decide (s.argN 0 = 0) || !s.sampleBusy (s.argN 0), .sampleBusy) (by simp [checksOf])
        have hne : (s.voice v).sample.toNat ≠ s.argN 0 := by
          intro h
          have hbusy := sampleBusy_of_playing (Nat.lt_of_lt_of_le (hpool.2.2.1 v havail) hpool.1) hv
          rw [h, hidle] at hbusy
          cases hbusy
        refine (State.playable_congr ?_).trans hplay
        exact (State.sample?_dropSample s _ _).trans (if_neg hne)
    case smpwrite => exact (playable_setSampleByte s _ _ _ _).trans hplay

theorem effect_voicesOk {i : Instr} {s : State} (hpool : s.poolOk) (hs : s.voicesOk)
    (hc : firstFault (checksOf s i) = none) : (effectOf s i).voicesOk := by
  cases hn : needsPool i with
  | true =>
    by_cases ha : i = .valloc
    · subst ha
      cases hl : s.lowestFree with
      | none => simp only [effectOf, hl]; exact hs
      | some n => simp only [effectOf, hl]; exact markUsed_setVoice_voicesOk hs _ rfl
    have hvalid := (voiceArg_valid hn ha hc).2
    by_cases hf : i = .vfree
    · subst hf
      exact markFree_voicesOk ((silenced_actsOn s _).voicesOk hs hvalid) (silenced_playing s _)
    · obtain ⟨t, ht, he⟩ := effect_actsOn s hn ha hf
      rw [he]
      exact ht.voicesOk hs hvalid
  | false =>
    by_cases hp : i = .pinit
    · subst hp
      rcases initPool_cases s (s.argN 0) with h | ⟨u, m, -, h⟩ <;> rw [effectOf, h]
      · exact hs
      · exact readyPool_voicesOk u _ m
    · obtain ⟨-, -, hfree, havail, hvoices, -⟩ := effect_pool_alone s hn hp
      intro v hv
      have hvoice : (effectOf s i).voice v = s.voice v := by rw [State.voice, hvoices]; rfl
      rw [hvoice] at hv ⊢
      rw [havail, State.isFree, hfree]
      obtain ⟨h1, h2, -⟩ := hs v hv
      exact ⟨h1, h2, effect_playable hpool hs hc hv⟩

/-! ### The invariant -/

theorem effect_faultOk {i : Instr} {s : State} (hs : s.faultOk) : (effectOf s i).faultOk := by
  have hun := effect_untouched i s
  refine ⟨?_, fun h => ?_⟩
  · rw [hun.fault, hun.faultCmd]; exact hs.1
  · rw [effect_status] at h; cases h

theorem effect_inv {i : Instr} {s : State} (hs : s.Inv) (hc : firstFault (checksOf s i) = none) : (effectOf s i).Inv := by
  obtain ⟨hsurf, hsmp, hpool, hvoices, hfault⟩ := hs
  exact ⟨effect_surfacesOk hsurf hc, effect_samplesOk hsmp hc, effect_poolOk hpool hc, effect_voicesOk hpool hvoices hc,
    effect_faultOk hfault⟩

theorem State.raiseFault_eq (s : State) (c : FaultCode) :
    s.raiseFault c =
      { s with
        status := .fault c
        fault := some (s.fault.getD c)
        faultCmd := if s.fault = none then s.cmd else s.faultCmd } := by
  cases h : s.fault <;> simp [State.raiseFault, h]

theorem raiseFault_inv {s : State} (hs : s.Inv) (c : FaultCode) : (s.raiseFault c).Inv := by
  obtain ⟨hsurf, hsmp, hpool, hvoices, -⟩ := hs
  rw [State.raiseFault_eq]
  exact ⟨hsurf, hsmp, hpool, hvoices, nofun, nofun⟩

theorem exec_inv {i : Instr} {s t : State} (hs : s.Inv) (h : exec i s = .next t) : t.Inv := by
  rcases exec_cases h with ⟨c, -, rfl⟩ | ⟨hc, rfl⟩
  · exact raiseFault_inv hs c
  · exact effect_inv hs hc

theorem runCommandWord_inv {w : Word} {s t : State} (hs : s.Inv) (h : runCommandWord w s = .next t) : t.Inv := by
  rcases runCommandWord_cases h with ⟨i, -, hi⟩ | ⟨-, rfl⟩
  · exact exec_inv (s := { s with cmd := w }) hs hi
  · exact raiseFault_inv (s := { s with cmd := w }) hs _

/-- Settles O27: waiting, reads and argument writes touch nothing the invariant speaks of, a command keeps each of its parts,
and reset establishes it. -/
theorem everyStepKeepsTheInvariant : Obligations.EveryStepKeepsTheInvariant := by
  intro s t hs h
  rcases step_cases h with
    ⟨-, rfl⟩ | ⟨e, rest, -, ⟨-, r, rfl⟩ | ⟨-, r, rfl⟩ | ⟨-, a, rfl⟩ | ⟨off, w, -, -, hrun⟩ | ⟨-, rfl⟩⟩
  · exact hs
  · exact hs
  · exact hs
  · exact hs
  · exact runCommandWord_inv (s := { s with pending := rest }) hs hrun
  · exact reset_inv s.cfg

end Sys2Proof.Machine

/-! The register map, the host's accesses and the command word (10_state.md R15 to R20, R27, R35). -/

namespace Sys2Proof

/-! ### Which register an offset names (R15, R27) -/

theorem regAt_arg (c : Config) (k : Fin 10) : regAt c (0x020 + 4 * k.val) = some (.arg k) := by
  fin_cases k <;> rfl

theorem ite_some_ne_cmd {p : Prop} [Decidable p] {r : Reg} {x : Option Reg} (hr : r ≠ .cmd) (hx : x ≠ some .cmd) :
    (if p then some r else x) ≠ some .cmd := by
  split
  · exact fun h => hr (Option.some.inj h)
  · exact hx

/-- Only offset 0 names CMD. -/
theorem regAt_cmd {c : Config} {off : Nat} (h : regAt c off = some .cmd) : off = 0 := by
  by_contra h0
  revert h
  rw [regAt, if_neg h0]
  iterate 9 refine ite_some_ne_cmd nofun ?_
  split
  · cases voiceRegAt ((off - 0x100) % 0x20) <;> nofun
  · nofun

/-- The ranges R15 marks reserved. -/
theorem regAt_reserved {c : Config} {off : Nat} (hal : off % 4 = 0)
    (h : (0x014 ≤ off ∧ off ≤ 0x01C) ∨ (0x048 ≤ off ∧ off ≤ 0x05C) ∨ (0x070 ≤ off ∧ off ≤ 0x0FC) ∨
      0x100 + 0x20 * c.maxVoices ≤ off) : regAt c off = none := by
  have hone := c.one_le_maxVoices
  unfold regAt
  repeat rw [if_neg (by omega)]

/-- An offset inside the block of a voice names the field there (R27). -/
theorem regAt_voiceBlock {c : Config} {i : Fin 32} (hi : i.val < c.maxVoices) {o : Nat} (ho : o < 0x20) :
    regAt c (0x100 + 0x20 * i.val + o) = (voiceRegAt o).map (.voice i) := by
  have hfield : (0x100 + 0x20 * i.val + o - 0x100) % 0x20 = o := by omega
  have hblock : (0x100 + 0x20 * i.val + o - 0x100) / 0x20 = i.val := by omega
  unfold regAt
  iterate 10 rw [if_neg (by omega)]
  rw [if_pos (by omega), hfield, hblock, Fin.ofNat_val_eq_self]

theorem voiceRegAt_offset (r : VoiceReg) : voiceRegAt (voiceRegOffset r) = some r := by cases r <;> rfl

theorem voiceRegOffset_lt (r : VoiceReg) : voiceRegOffset r < 0x20 ∧ voiceRegOffset r % 4 = 0 := by
  cases r <;> decide

theorem regAt_voice {c : Config} {i : Fin 32} (hi : i.val < c.maxVoices) (r : VoiceReg) :
    regAt c (regOffset (.voice i r)) = some (.voice i r) :=
  (regAt_voiceBlock hi (voiceRegOffset_lt r).1).trans (by rw [voiceRegAt_offset]; rfl)

theorem admittedReg_of_regAt {c : Config} {off : Nat} {r : Reg} (hal : off % 4 = 0) (hwin : off < 0x1000)
    (hr : regAt c off = some r) : admittedReg c off 4 = .ok r := by
  simp [admittedReg, hal, hwin, hr]

/-! ### The command word (R54, R55) -/

theorem lookupOpcode_mem {op : BitVec 8} {i : Instr} {rows : List (BitVec 8 × Instr)}
    (h : lookupOpcode op rows = some i) : (op, i) ∈ rows := by
  induction rows with
  | nil => cases h
  | cons row rows ih =>
    unfold lookupOpcode at h
    split at h
    · rename_i hop
      cases h
      exact hop ▸ List.mem_cons_self
    · exact List.mem_cons_of_mem _ (ih h)

/-- A word whose upper bits are 0 is its opcode, zero-extended. -/
theorem eq_setWidth_wordOp {w : Word} (h : wordRsv w = 0) : w = (wordOp w).setWidth 32 := by
  have hlt := w.isLt
  have hrsv := congrArg BitVec.toNat h
  simp only [wordRsv, BitVec.extractLsb'_toNat, Nat.shiftRight_eq_div_pow, BitVec.ofNat_eq_ofNat,
    BitVec.toNat_ofNat] at hrsv
  refine BitVec.eq_of_toNat_eq ?_
  simp only [wordOp, BitVec.toNat_setWidth, BitVec.extractLsb'_toNat, Nat.shiftRight_zero]
  omega

/-- A word decodes to a command only if it is the command's encoding. -/
theorem eq_encode_of_decode {w : Word} {i : Instr} (h : decode w = .ok i) : w = encode i := by
  unfold decode at h
  split at h
  · rename_i hrsv
    split at h
    · rename_i j hj
      cases h
      have hrows : ∀ row ∈ opcodeRows, row.1 = opcodeOf row.2 := by decide
      rw [encode, ← hrows _ (lookupOpcode_mem hj)]
      exact eq_setWidth_wordOp hrsv
    · cases h
  · cases h

end Sys2Proof

namespace Sys2Proof.Machine

/-! ### The host's accesses (R39) -/

theorem step_write {s : State} {off : Nat} {v : Word} {rest : List Event} {r : Reg}
    (hp : s.pending = .bus (.write off 4 v) :: rest) (hr : admittedReg s.cfg off 4 = .ok r) :
    step s = writeReg r v { s with pending := rest } := by
  simp only [step, nextEvent, hp, perform, busAccess, hr]

theorem step_read {s : State} {off : Nat} {rest : List Event} {r : Reg}
    (hp : s.pending = .bus (.read off 4) :: rest) (hr : admittedReg s.cfg off 4 = .ok r) :
    step s = .next { s with pending := rest, reads := s.reads ++ [s.readReg r] } := by
  simp only [step, nextEvent, hp, perform, busAccess, hr]
  rfl

/-- Settles O5: offset 0 admits the write, which is the command cycle. -/
theorem stepRunsDecodedCommand : Obligations.StepRunsDecodedCommand := by
  intro s w rest hp
  have hrun : step s = runCommandWord w { s with pending := rest } := step_write (r := .cmd) hp rfl
  rw [hrun, runCommandWord]
  exact ⟨fun i hi => by rw [hi], fun e he => by rw [he]⟩

/-- Settles O10: no table entry is listed after reset, and the registers and records have the values written out. -/
theorem resetValues : Obligations.ResetValues := by
  refine ⟨rfl, fun c => ⟨rfl, rfl, rfl, rfl, rfl, fun k => ?_, rfl, rfl, rfl, rfl, reset_voice c, fun h => ?_, fun m => ?_,
    rfl⟩⟩
  · simp [State.resetWith]
  · rw [State.liveSurface_false, State.surface?]
    split <;> rfl
  · rw [State.liveSample_false, State.sample?]
    split <;> rfl

/-- Settles O7: the codes are compared one by one, the offsets read off the map, and a narrower field is zero-extended. -/
theorem registerMap : Obligations.RegisterMap := by
  refine ⟨⟨rfl, rfl, rfl, rfl, rfl, rfl, rfl, rfl, rfl, rfl, rfl, rfl, rfl, fun _ => rfl, fun st => ?_, fun st => ?_⟩, ?_⟩
  · rcases st with _ | _ | _ | _ | c
    case fault => cases c <;> decide
    all_goals decide
  · rcases st with _ | _ | _ | _ | c
    case fault => cases c <;> rfl
    all_goals rfl
  · intro c s
    refine ⟨⟨rfl, rfl, rfl, rfl, rfl, regAt_arg c, rfl, rfl, rfl, rfl⟩, fun off => regAt_reserved,
      rfl, ?_, rfl, ?_, rfl, fun _ => rfl, ?_, ?_, rfl, rfl⟩
    · exact BitVec.toNat_setWidth_of_le (by decide)
    · unfold State.readReg
      cases s.fault with
      | none => rfl
      | some f => exact BitVec.toNat_setWidth_of_le (by decide)
    · unfold State.readReg
      cases s.poolState <;> rfl
    · exact BitVec.toNat_setWidth_of_le (by decide)

/-! ### The VOICE[i] block (R27) -/

/-- The three bits of VSTATE, and nothing above them. -/
theorem vstate_bits (s : State) (i : Fin 32) :
    (s.vstate i).getLsbD 0 = (s.voice i).playing ∧ (s.vstate i).getLsbD 1 = (s.voice i).loop ∧
      (s.vstate i).getLsbD 2 = s.isFree i ∧ (s.vstate i).toNat < 8 := by
  unfold State.vstate
  generalize (s.voice i).playing = p, (s.voice i).loop = l, s.isFree i = f
  revert p l f
  decide

/-- No command but PINIT writes the record of a voice at or above CAPACITY. -/
theorem effect_voice_above {i : Instr} {s : State} (hp : i ≠ .pinit) (hc : firstFault (checksOf s i) = none)
    {v : Fin 32} (hv : s.capacity.toNat ≤ v.val) : (effectOf s i).voice v = s.voice v := by
  cases hn : needsPool i with
  | false =>
    obtain ⟨-, -, -, -, hvoices, -⟩ := effect_pool_alone s hn hp
    rw [State.voice, hvoices]
    rfl
  | true =>
    by_cases ha : i = .valloc
    · subst ha
      cases hl : s.lowestFree with
      | none => simp only [effectOf, hl]; rfl
      | some n =>
        have hne : v ≠ voiceSlot n := by
          rintro rfl
          exact absurd (lowestFree_some hl).1 (Nat.not_lt.mpr hv)
        simp only [effectOf, hl]
        exact (State.voice_setVoice _ _ _ _).trans (if_neg hne)
    have hne : v ≠ s.voiceArg := by
      rintro rfl
      exact absurd (voiceArg_valid hn ha hc).1 (Nat.not_lt.mpr hv)
    by_cases hf : i = .vfree
    · subst hf
      exact (silenced_actsOn s s.voiceArg).others v hne
    · obtain ⟨t, ht, he⟩ := effect_actsOn s hn ha hf
      rw [he]
      exact ht.others v hne

/-- Settles O8: the block's offsets, its bits, the ignored host write, and the frame of the commands. -/
theorem voiceBlock : Obligations.VoiceBlock := by
  refine ⟨fun s i hi => ⟨?_, ?_, fun r x rest hp => ?_⟩, fun j s t i h hj hv => ?_⟩
  · exact ⟨regAt_voice hi .vstate, regAt_voice hi .vsample, regAt_voice hi .vpos, regAt_voice hi .vrate,
      regAt_voice hi .vvol, regAt_voice hi .vpan, regAt_voiceBlock hi (by decide), regAt_voiceBlock hi (by decide)⟩
  · obtain ⟨hplay, hloop, hfree, hlt⟩ := vstate_bits s i
    exact ⟨hplay, hloop, hfree, hlt, rfl, rfl, rfl, BitVec.toNat_setWidth_of_le (by decide),
      BitVec.toNat_setWidth_of_le (by decide)⟩
  · obtain ⟨hlt, hal⟩ := voiceRegOffset_lt r
    have hoff : regOffset (.voice i r) = 0x100 + 0x20 * i.val + voiceRegOffset r := rfl
    exact step_write hp (admittedReg_of_regAt (by omega) (by omega) (regAt_voice hi r))
  · rcases exec_cases h with ⟨c, -, rfl⟩ | ⟨hc, rfl⟩
    · rw [State.raiseFault_voices]
    · exact effect_voice_above hj hc hv

/-! ### The outcome of a command word (R18, R19) -/

/-- A command word faults, or it ends without a fault and leaves the fault registers alone. -/
theorem runCommandWord_outcome {w : Word} {s t : State} (h : runCommandWord w s = .next t) :
    (∃ c, t = { s with cmd := w }.raiseFault c) ∨
      t.status.isFault = false ∧ t.fault = s.fault ∧ t.faultCmd = s.faultCmd := by
  rcases runCommandWord_cases h with ⟨i, -, hi⟩ | ⟨-, ht⟩
  · rcases exec_cases hi with ⟨c, -, ht⟩ | ⟨-, rfl⟩
    · exact .inl ⟨c, ht⟩
    · have hun := effect_untouched i { s with cmd := w }
      exact .inr ⟨effect_status i _, hun.fault, hun.faultCmd⟩
  · exact .inl ⟨_, ht⟩

/-- A command word leaves a latched fault alone. -/
theorem runCommandWord_latched {w : Word} {s t : State} (h : runCommandWord w s = .next t) (hf : s.fault ≠ none) :
    t.fault = s.fault ∧ t.faultCmd = s.faultCmd := by
  rcases runCommandWord_outcome h with ⟨c, rfl⟩ | ⟨-, hfault, hcmd⟩
  · obtain ⟨f, hf⟩ := Option.ne_none_iff_exists'.mp hf
    simp [hf]
  · exact ⟨hfault, hcmd⟩

/-- No step but a reset changes the fault registers once a fault is latched. -/
theorem step_latched {s t : State} (h : step s = .next t) (hr : s.pending.head? ≠ some .reset) (hf : s.fault ≠ none) :
    t.fault = s.fault ∧ t.faultCmd = s.faultCmd := by
  rcases step_cases h with
    ⟨-, rfl⟩ | ⟨e, rest, hp, ⟨-, r, rfl⟩ | ⟨-, r, rfl⟩ | ⟨-, a, rfl⟩ | ⟨off, w, -, -, hrun⟩ | ⟨rfl, -⟩⟩
  · exact ⟨rfl, rfl⟩
  · exact ⟨rfl, rfl⟩
  · exact ⟨rfl, rfl⟩
  · exact ⟨rfl, rfl⟩
  · exact runCommandWord_latched (s := { s with pending := rest }) hrun hf
  · exact absurd (by rw [hp]; rfl) hr

/-- Settles O17: a fault latches only while none is, a latched fault stays until reset, and reset clears it. -/
theorem firstFaultLatches : Obligations.FirstFaultLatches := by
  refine ⟨fun w s t h => ⟨fun hf c hst => ?_, fun hf hst => ?_⟩, fun s t => step_latched, fun s t h hr => ?_,
    fun s t h hclean => ?_, fun w s t h hclean => ?_⟩
  · rcases runCommandWord_outcome h with ⟨d, rfl⟩ | ⟨hok, -⟩
    · rw [State.raiseFault_status, Status.fault.injEq] at hst
      subst hst
      simp [hf]
    · rw [hst] at hok; cases hok
  · rcases runCommandWord_outcome h with ⟨d, rfl⟩ | ⟨-, hfault, hcmd⟩
    · rw [State.raiseFault_status] at hst; cases hst
    · exact ⟨hfault.trans hf, hcmd⟩
  · obtain ⟨rest, hp⟩ := List.head?_eq_some_iff.mp hr
    simp only [step, nextEvent, hp, perform] at h
    cases h
    exact ⟨rfl, rfl⟩
  · by_cases hf : s.fault = none
    · exact .inl hf
    · refine .inr (Decidable.byContradiction fun hr => hf ?_)
      exact (step_latched h hr hf).1.symm.trans hclean
  · rcases runCommandWord_outcome h with ⟨d, rfl⟩ | ⟨hok, -⟩
    · rw [State.clean, State.raiseFault_fault] at hclean; cases hclean
    · exact hok

/-- How each command ends once its checks pass, and what it leaves in RESULT (R18). -/
theorem effect_result (i : Instr) (s : State) :
    ((effectOf s i).status = .ok ∧
        (i ∉ [Instr.screate, .sgetpix, .sinfo, .smpcreate, .smpread, .smpinfo, .valloc] → (effectOf s i).result = 0)) ∨
      ((effectOf s i).status = .noneFree ∧ (effectOf s i).result = 0xFFFFFFFF) ∨
      (((effectOf s i).status = .allocFail ∨ (effectOf s i).status = .initFail) ∧ (effectOf s i).result = 0) := by
  cases i
  case screate =>
    cases ha : s.allocSurface with
    | none => simp [effectOf, ha]
    | some r => simp [effectOf, ha]
  case smpcreate =>
    cases ha : s.allocSample with
    | none => simp [effectOf, ha]
    | some r => simp [effectOf, ha]
  case valloc =>
    cases hl : s.lowestFree with
    | none => simp [effectOf, hl]
    | some n => simp [effectOf, hl]
  case pinit =>
    rcases initPool_cases s (s.argN 0) with h | ⟨u, m, -, h⟩ <;> rw [effectOf, h]
    · exact .inr (.inr ⟨.inr rfl, rfl⟩)
    · exact .inl ⟨rfl, fun _ => rfl⟩
  case sdestroy => simp only [effectOf]; split <;> exact .inl ⟨rfl, fun _ => rfl⟩
  case smpdestroy => simp only [effectOf]; split <;> exact .inl ⟨rfl, fun _ => rfl⟩
  case sgetpix => exact .inl ⟨rfl, fun h => absurd (by decide) h⟩
  case sinfo => exact .inl ⟨rfl, fun h => absurd (by decide) h⟩
  case smpread => exact .inl ⟨rfl, fun h => absurd (by decide) h⟩
  case smpinfo => exact .inl ⟨rfl, fun h => absurd (by decide) h⟩
  all_goals exact .inl ⟨rfl, fun _ => rfl⟩

/-- Settles O20: RESULT by the way a command ends, and STATUS and RESULT are read-only. -/
theorem resultOnEachOutcome : Obligations.ResultOnEachOutcome := by
  refine ⟨fun i s t h => ?_, fun s off v rest hoff hp => ?_⟩
  · rcases exec_cases h with ⟨c, -, rfl⟩ | ⟨-, rfl⟩
    · simp
    · rcases effect_result i s with ⟨hst, hres⟩ | ⟨hst, hres⟩ | ⟨hst | hst, hres⟩
      · simpa [hst, Status.isFault] using hres
      · simp [hst, hres, Status.isFault]
      · simp [hst, hres, Status.isFault]
      · simp [hst, hres, Status.isFault]
  · rcases hoff with rfl | rfl
    · exact step_write (r := .status) hp rfl
    · exact step_write (r := .result) hp rfl

/-! ### The pool registers (R21 to R24) -/

/-- Only PINIT writes POOL_STATE, CAPACITY and AVAIL_MASK. -/
theorem effect_pool_registers {i : Instr} (s : State) (hp : i ≠ .pinit) :
    (effectOf s i).poolState = s.poolState ∧ (effectOf s i).capacity = s.capacity ∧
      (effectOf s i).availMask = s.availMask := by
  cases hn : needsPool i with
  | true =>
    obtain ⟨-, -, -, -, h⟩ := effect_tables_alone s hn
    exact h
  | false =>
    obtain ⟨hpool, hcap, -, havail, -⟩ := effect_pool_alone s hn hp
    exact ⟨hpool, hcap, havail⟩

/-- PINIT passes its checks in an UNINIT pool only, and leaves it READY with OK or FAILED with INIT_FAIL (R83). -/
theorem effect_pinit_pool {s : State} (hc : firstFault (checksOf s .pinit) = none) :
    s.poolState = .uninit ∧
      (((effectOf s .pinit).poolState = .ready ∧ (effectOf s .pinit).status = .ok) ∨
        ((effectOf s .pinit).poolState = .failed ∧ (effectOf s .pinit).status = .initFail)) := by
  constructor
  · cases hp : s.poolState <;> simp [checksOf, hp] at hc ⊢
  · rcases initPool_cases s (s.argN 0) with h | ⟨u, m, -, h⟩ <;> rw [effectOf, h]
    · exact .inr ⟨rfl, rfl⟩
    · exact .inl ⟨rfl, rfl⟩

/-- Settles O22: of the events, reset and a command word alone can change POOL_STATE, and of the words PINIT's. -/
theorem poolStateTransitions : Obligations.PoolStateTransitions := by
  refine ⟨⟨rfl, rfl, rfl, fun p => by cases p <;> decide⟩, fun s t h hne => ?_⟩
  rcases step_cases h with
    ⟨-, rfl⟩ | ⟨e, rest, hp, ⟨-, r, rfl⟩ | ⟨-, r, rfl⟩ | ⟨-, a, rfl⟩ | ⟨off, w, rfl, hreg, hrun⟩ | ⟨rfl, rfl⟩⟩
  · exact absurd rfl hne
  · exact absurd rfl hne
  · exact absurd rfl hne
  · exact absurd rfl hne
  · rcases runCommandWord_cases hrun with ⟨i, hi, hex⟩ | ⟨-, rfl⟩
    · rcases exec_cases hex with ⟨c, -, rfl⟩ | ⟨hc, rfl⟩
      · exact absurd (State.raiseFault_poolState _ _) hne
      · by_cases hpin : i = .pinit
        · subst hpin
          have hhead : s.pending.head? = some (.bus (.write 0x000 4 (encode .pinit))) := by
            rw [hp, regAt_cmd hreg, eq_encode_of_decode hi]; rfl
          exact .inr ⟨hhead, effect_pinit_pool hc⟩
        · exact absurd (effect_pool_registers _ hpin).1 hne
    · exact absurd (State.raiseFault_poolState _ _) hne
  · exact .inl ⟨by rw [hp]; rfl, rfl⟩

/-- Settles O23: a voice control command acts on records and the log alone, and the other commands leave the pool alone. -/
theorem maskWriters : Obligations.MaskWriters := by
  intro i s t h
  rcases exec_cases h with ⟨c, -, rfl⟩ | ⟨-, rfl⟩
  · simp
  · refine ⟨fun hp => ?_, fun hp ha hf => ?_⟩
    · obtain ⟨-, hcap, havail⟩ := effect_pool_registers s hp
      exact ⟨havail, hcap⟩
    · cases hn : needsPool i with
      | true =>
        obtain ⟨t, ht, he⟩ := effect_actsOn s hn ha hf
        rw [he, State.complete_freeMask, ht.rest]
      | false =>
        obtain ⟨-, -, hfree, -⟩ := effect_pool_alone s hn hp
        exact hfree

/-! ### BACKEND_LOG (R33) -/

theorem effect_valloc_log (s : State) : (effectOf s .valloc).log = s.log := by
  simp only [effectOf]
  split <;> rfl

theorem effect_log_grows (i : Instr) (s : State) : ∃ new, (effectOf s i).log = s.log ++ new := by
  cases hn : needsPool i with
  | true =>
    by_cases ha : i = .valloc
    · exact ⟨[], by rw [ha, effect_valloc_log, List.append_nil]⟩
    by_cases hf : i = .vfree
    · subst hf
      exact (silenced_actsOn s s.voiceArg).log
    · obtain ⟨t, ht, he⟩ := effect_actsOn s hn ha hf
      rw [he]
      exact ht.log
  | false =>
    by_cases hp : i = .pinit
    · subst hp
      rcases initPool_cases s (s.argN 0) with h | ⟨u, m, rfl | rfl, h⟩ <;> rw [effectOf, h]
      · exact ⟨[.init], rfl⟩
      · exact ⟨[], (List.append_nil _).symm⟩
      · exact ⟨[.init], rfl⟩
    · obtain ⟨-, -, -, -, -, hlog⟩ := effect_pool_alone s hn hp
      exact ⟨[], by rw [hlog, List.append_nil]⟩

/-- Settles O24: voice control commands, VFREE and PINIT append, every other command leaves the log. -/
theorem logOnlyGrows : Obligations.LogOnlyGrows := by
  intro i s t h
  rcases exec_cases h with ⟨c, -, rfl⟩ | ⟨-, rfl⟩
  · exact ⟨⟨[], by simp⟩, fun _ _ => State.raiseFault_log _ _⟩
  · refine ⟨effect_log_grows i s, fun hi hp => ?_⟩
    rcases hi with hn | rfl
    · obtain ⟨-, -, -, -, -, hlog⟩ := effect_pool_alone s hn hp
      exact hlog
    · exact effect_valloc_log s

end Sys2Proof.Machine

/-! What a command leaves of the table entries it does not name (10_state.md R30, R32; 42_blit.md R76). -/

namespace Sys2Proof.Machine

/-! ### Surfaces -/

theorem writesSurfaces_iff {i : Instr} : writesSurfaces i = true ↔
    i = .screate ∨ i = .sdestroy ∨ (i = .sclear ∨ i = .sputpix) ∨ (i = .blitMasked ∨ i = .blitStretch) := by
  cases i <;> simp [writesSurfaces]

/-- SCLEAR and SPUTPIX write bytes of the surface ARG0 names. -/
theorem effect_painted_arg0 {i : Instr} (s : State) (hi : i = .sclear ∨ i = .sputpix) :
    ∃ t, Painted (s.argN 0) s t ∧ effectOf s i = t.complete .ok 0 := by
  rcases hi with rfl | rfl
  · exact ⟨_, fillSurface_painted s _ _, rfl⟩
  · exact ⟨_, setPixel_painted s _ _ _ _, rfl⟩

/-- A blit writes bytes of the surface ARG1 names. -/
theorem effect_painted_arg1 {i : Instr} (s : State) (hi : i = .blitMasked ∨ i = .blitStretch) :
    ∃ t, Painted (s.argN 1) s t ∧ effectOf s i = t.complete .ok 0 := by
  rcases hi with rfl | rfl <;> exact ⟨_, blit_painted s _ _ _ _ _ _ _ _, rfl⟩

/-- SDESTROY makes the entry it names invalid and leaves every other (R68). -/
theorem effect_sdestroy_surface? (s : State) (h : Nat) :
    (effectOf s .sdestroy).surface? h = if h = s.argN 0 then none else s.surface? h := by
  simp only [effectOf]
  split
  · rename_i h0
    by_cases hh : h = s.argN 0
    · rw [if_pos hh, hh, h0]; rfl
    · rw [if_neg hh]; rfl
  · exact State.surface?_dropSurface s _ h

/-- SCREATE takes a handle that is not live (R45, R67). -/
theorem effect_screate_live {s : State} {h : Nat} (hl : s.liveSurface h = true) :
    (effectOf s .screate).surface? h = s.surface? h := by
  cases ha : s.allocSurface with
  | none => simp only [effectOf, ha]; rfl
  | some r =>
    obtain ⟨h1, -, hdead⟩ := admittedHandle_some ha
    have hne : h ≠ r := by rintro rfl; rw [hl] at hdead; cases hdead
    simp only [effectOf, ha]
    exact (State.surface?_putSurface s.asking (Nat.ne_of_gt h1) _ h).trans (if_neg hne)

theorem Painted.dims {g : Nat} {s t : State} (a : Painted g s t) {h : Nat} {S T : Surface} (hS : s.surface? h = some S)
    (hT : t.surface? h = some T) : T.w = S.w ∧ T.h = S.h := by
  by_cases hg : h = g
  · subst hg
    obtain ⟨pix, hp⟩ := a.live S hS
    cases hp.symm.trans hT
    exact ⟨rfl, rfl⟩
  · rw [a.others h hg, hS] at hT
    cases hT
    exact ⟨rfl, rfl⟩

/-- An entry valid before and after a command keeps its dimensions (R30). -/
theorem effect_dims {i : Instr} {s : State} {h : Nat} {S T : Surface} (hS : s.surface? h = some S)
    (hT : (effectOf s i).surface? h = some T) : T.w = S.w ∧ T.h = S.h := by
  have hsame : (effectOf s i).surface? h = s.surface? h → T.w = S.w ∧ T.h = S.h := by
    intro he
    rw [he, hS] at hT
    cases hT
    exact ⟨rfl, rfl⟩
  cases hw : writesSurfaces i with
  | false => exact hsame (State.surface?_congr (effect_surfaces_alone s hw) h)
  | true =>
    rcases writesSurfaces_iff.mp hw with rfl | rfl | hi | hi
    · exact hsame (effect_screate_live (State.liveSurface_iff.mpr ⟨S, hS⟩))
    · rw [effect_sdestroy_surface?] at hT
      split at hT
      · cases hT
      · rw [hS] at hT; cases hT; exact ⟨rfl, rfl⟩
    · obtain ⟨t, ht, he⟩ := effect_painted_arg0 s hi
      rw [he] at hT
      exact ht.dims hS hT
    · obtain ⟨t, ht, he⟩ := effect_painted_arg1 s hi
      rw [he] at hT
      exact ht.dims hS hT

/-! ### Samples -/

theorem writesSamples_iff {i : Instr} :
    writesSamples i = true ↔ i = .smpcreate ∨ i = .smpdestroy ∨ i = .smpwrite := by
  cases i <;> simp [writesSamples]


/-- SMPDESTROY makes the entry it names invalid and leaves every other (R78). -/
theorem effect_smpdestroy_sample? (s : State) (m : Nat) :
    (effectOf s .smpdestroy).sample? m = if m = s.argN 0 then none else s.sample? m := by
  simp only [effectOf]
  split
  · rename_i h0
    by_cases hm : m = s.argN 0
    · rw [if_pos hm, hm, h0]; rfl
    · rw [if_neg hm]; rfl
  · exact State.sample?_dropSample s _ m

/-- SMPCREATE takes a handle that is not live (R45, R77). -/
theorem effect_smpcreate_live {s : State} {m : Nat} (hl : s.liveSample m = true) :
    (effectOf s .smpcreate).sample? m = s.sample? m := by
  cases ha : s.allocSample with
  | none => simp only [effectOf, ha]; rfl
  | some r =>
    obtain ⟨h1, -, hdead⟩ := admittedHandle_some ha
    have hne : m ≠ r := by rintro rfl; rw [hl] at hdead; cases hdead
    simp only [effectOf, ha]
    exact (State.sample?_putSample s.asking (Nat.ne_of_gt h1) _ m).trans (if_neg hne)

theorem effect_smpwrite_sample? (s : State) (m : Nat) :
    (effectOf s .smpwrite).sample? m =
      (s.setSampleByte (s.argN 0) (s.argN 1) (BitVec.ofNat 8 (s.argN 2))).sample? m := rfl

/-- An entry valid before and after a command keeps its metadata (R32). -/
theorem effect_metadata {i : Instr} {s : State} {m : Nat} {M N : Sample} (hM : s.sample? m = some M)
    (hN : (effectOf s i).sample? m = some N) : N = { M with data := N.data } := by
  have hsame : (effectOf s i).sample? m = s.sample? m → N = { M with data := N.data } := by
    intro he
    rw [he, hM] at hN
    cases hN
    rfl
  cases hw : writesSamples i with
  | false => exact hsame (State.sample?_congr (effect_samples_alone s hw) m)
  | true =>
    rcases writesSamples_iff.mp hw with rfl | rfl | rfl
    · exact hsame (effect_smpcreate_live (State.liveSample_iff.mpr ⟨M, hM⟩))
    · rw [effect_smpdestroy_sample?] at hN
      split at hN
      · cases hN
      · rw [hM] at hN; cases hN; rfl
    · rw [effect_smpwrite_sample?, State.sample?_setSampleByte] at hN
      split at hN
      · rename_i hm
        rw [← hm, hM] at hN
        cases hN
        rfl
      · rw [hM] at hN; cases hN; rfl

/-- Settles O25: the shapes, then the frame of each command that writes a table. -/
theorem liveEntriesKeepTheirShape : Obligations.LiveEntriesKeepTheirShape := by
  intro i s t h
  rcases exec_cases h with ⟨c, -, rfl⟩ | ⟨-, rfl⟩
  · have hsurf : ∀ g, (s.raiseFault c).surface? g = s.surface? g := State.surface?_congr (State.raiseFault_surfaces s c)
    have hsmp : ∀ m, (s.raiseFault c).sample? m = s.sample? m := State.sample?_congr (State.raiseFault_samples s c)
    refine ⟨fun g S T hS hT => ?_, fun m M N hM hN => ?_, fun g => ?_, fun m => ?_⟩
    · rw [hsurf, hS] at hT; cases hT; exact ⟨rfl, rfl⟩
    · rw [hsmp, hM] at hN; cases hN; rfl
    · simp [hsurf]
    · simp [hsmp]
  · refine ⟨fun g S T => effect_dims, fun m M N => effect_metadata, fun g => ⟨?_, ?_, ?_, ?_⟩, fun m => ⟨?_, ?_, ?_⟩⟩
    · intro h1 h2 h3 h4 h5 h6
      have hw : writesSurfaces i = false := by simp [← Bool.not_eq_true, writesSurfaces_iff, *]
      exact State.surface?_congr (effect_surfaces_alone s hw) g
    · rintro (rfl | hi) hg
      · rw [effect_sdestroy_surface?, if_neg hg]
      · obtain ⟨t, ht, he⟩ := effect_painted_arg0 s hi
        rw [he]
        exact ht.others g hg
    · intro hi hg
      obtain ⟨t, ht, he⟩ := effect_painted_arg1 s hi
      rw [he]
      exact ht.others g hg
    · rintro rfl hl
      exact effect_screate_live hl
    · intro h1 h2 h3
      have hw : writesSamples i = false := by simp [← Bool.not_eq_true, writesSamples_iff, *]
      exact State.sample?_congr (effect_samples_alone s hw) m
    · rintro (rfl | rfl) hm
      · rw [effect_smpdestroy_sample?, if_neg hm]
      · rw [effect_smpwrite_sample?, State.sample?_setSampleByte, if_neg hm]
    · rintro rfl hl
      exact effect_smpcreate_live hl

end Sys2Proof.Machine

/-! The argument registers (10_state.md R20): the host writes and reads each alone, and a command neither writes one nor sees
one above its operand count. -/

namespace Sys2Proof.Machine

/-- The state with another value in ARG[k]. -/
def State.setArg (s : State) (k : Fin 10) (v : Word) : State := { s with args := s.args.set k v }

theorem getElem_set_ne (a : Vector Word 10) {j k : Fin 10} (h : j ≠ k) (v : Word) : (a.set k v)[j] = a[j] :=
  Vector.getElem_set_ne _ _ fun e => h (Fin.ext e.symm)

section

variable (s : State) (k : Fin 10) (x : Word)

theorem State.arg_setArg {k j : Fin 10} (h : j.val < k.val) : (s.setArg k x).arg j = s.arg j :=
  getElem_set_ne s.args (Fin.ne_of_lt h) x

theorem State.argN_setArg {k j : Fin 10} (h : j.val < k.val) : (s.setArg k x).argN j = s.argN j := by
  rw [State.argN, State.arg_setArg s x h, State.argN]

theorem setArg_surfaceBlind : SurfaceBlind fun s => s.setArg k x := ⟨fun _ => rfl, fun _ _ => rfl⟩

/-! ### What does not see an argument -/

theorem raiseFault_setArg (c : FaultCode) : (s.setArg k x).raiseFault c = (s.raiseFault c).setArg k x := by
  rw [State.raiseFault_eq, State.raiseFault_eq]; rfl

theorem setSampleByte_setArg (m i : Nat) (b : Byte) :
    (s.setArg k x).setSampleByte m i b = (s.setSampleByte m i b).setArg k x := by
  have hm : (s.setArg k x).sample? m = s.sample? m := rfl
  rw [State.setSampleByte, State.setSampleByte, hm]
  cases s.sample? m <;> rfl

theorem startVoice_setArg (v : Fin 32) : (s.setArg k x).startVoice v = (s.startVoice v).setArg k x := by
  have hfree : (s.setArg k x).isFree v = s.isFree v := rfl
  have hm : (s.setArg k x).sample? ((s.setArg k x).voice v).sample.toNat = s.sample? (s.voice v).sample.toNat := rfl
  rw [State.startVoice, State.startVoice, hfree, hm]
  split
  · rfl
  · cases s.sample? (s.voice v).sample.toNat with
    | none => rfl
    | some M => dsimp only; split <;> rfl

theorem setRate_setArg (v : Fin 32) (r : Word) : (s.setArg k x).setRate v r = (s.setRate v r).setArg k x := by
  have hplay : ((s.setArg k x).voice v).playing = (s.voice v).playing := rfl
  rw [State.setRate, State.setRate, hplay]
  split
  · exact startVoice_setArg (s.setVoice v { s.voice v with rate := r }) k x v
  · rfl

theorem setPosition_setArg (v : Fin 32) (p : Word) :
    (s.setArg k x).setPosition v p = (s.setPosition v p).setArg k x := by
  have hplay : ((s.setArg k x).voice v).playing = (s.voice v).playing := rfl
  rw [State.setPosition, State.setPosition, hplay]
  split
  · exact startVoice_setArg (s.setVoice v { s.voice v with position := p }) k x v
  · rfl

theorem pushVolPan_setArg (v : Fin 32) : (s.setArg k x).pushVolPan v = (s.pushVolPan v).setArg k x := by
  have hplay : ((s.setArg k x).voice v).playing = (s.voice v).playing := rfl
  rw [State.pushVolPan, State.pushVolPan, hplay]
  split <;> rfl

theorem setVol_setArg (v : Fin 32) (b : Byte) : (s.setArg k x).setVol v b = (s.setVol v b).setArg k x :=
  pushVolPan_setArg (s.setVoice v { s.voice v with vol := b }) k x v

theorem setPan_setArg (v : Fin 32) (b : Byte) : (s.setArg k x).setPan v b = (s.setPan v b).setArg k x :=
  pushVolPan_setArg (s.setVoice v { s.voice v with pan := b }) k x v

theorem initPool_setArg (cap : Nat) : (s.setArg k x).initPool cap = (s.initPool cap).setArg k x := by
  have hcfg : (s.setArg k x).cfg = s.cfg := rfl
  have hans : (s.setArg k x).nextAnswer = s.nextAnswer := rfl
  rw [State.initPool, State.initPool, hcfg, hans]
  split
  · cases s.nextAnswer.backendMask <;> rfl
  · rfl

theorem setPixel_setArg (g a b : Nat) (c : Byte) :
    (s.setArg k x).setPixel g a b c = (s.setPixel g a b c).setArg k x :=
  ((setArg_surfaceBlind k x).setPixel s g a b c).symm

theorem fillSurface_setArg (g : Nat) (c : Byte) : (s.setArg k x).fillSurface g c = (s.fillSurface g c).setArg k x :=
  ((setArg_surfaceBlind k x).fillSurface s g c).symm

theorem blit_setArg (src dst : Nat) (sx sy : Nat → Nat) (dstX dstY w h : Nat) :
    (s.setArg k x).blit src dst sx sy dstX dstY w h = (s.blit src dst sx sy dstX dstY w h).setArg k x :=
  ((setArg_surfaceBlind k x).blit s src dst sx sy dstX dstY w h).symm

/-! ### A command and an argument above its operand count -/

/-- The checks of a command read no argument above its operand count. -/
theorem checksOf_setArg {i : Instr} (hk : (slots i).length ≤ k.val) : checksOf (s.setArg k x) i = checksOf s i := by
  have harg : ∀ j : Fin 10, j.val < (slots i).length → (s.setArg k x).argN j = s.argN j :=
    fun j hj => State.argN_setArg s x (Nat.lt_of_lt_of_le hj hk)
  cases i <;>
    simp (disch := decide) only [checksOf, voiceChecks, voiceCheck, surfCheck, surf0Check, smpCheck, smp0Check, dimCheck,
      byteCheck, c16Check, bitsCheck, channelsCheck, fieldCheck, capCheck, offsetCheck, harg] <;>
    rfl

/-- The effect of a command reads and writes no argument above its operand count. -/
theorem effectOf_setArg {i : Instr} (hk : (slots i).length ≤ k.val) :
    effectOf (s.setArg k x) i = (effectOf s i).setArg k x := by
  have harg : ∀ j : Fin 10, j.val < (slots i).length → (s.setArg k x).arg j = s.arg j :=
    fun j hj => State.arg_setArg s x (Nat.lt_of_lt_of_le hj hk)
  have hargN : ∀ j : Fin 10, j.val < (slots i).length → (s.setArg k x).argN j = s.argN j :=
    fun j hj => State.argN_setArg s x (Nat.lt_of_lt_of_le hj hk)
  have hvoice : 0 < (slots i).length → (s.setArg k x).voiceArg = s.voiceArg :=
    fun h0 => congrArg voiceSlot (hargN 0 h0)
  cases i <;> simp (disch := decide) only [effectOf, harg, hargN, hvoice]
  case screate =>
    have hans : (s.setArg k x).allocSurface = s.allocSurface := rfl
    rw [hans]
    cases s.allocSurface <;> rfl
  case smpcreate =>
    have hans : (s.setArg k x).allocSample = s.allocSample := rfl
    rw [hans]
    cases s.allocSample <;> rfl
  case valloc =>
    have hlow : (s.setArg k x).lowestFree = s.lowestFree := rfl
    rw [hlow]
    cases s.lowestFree <;> rfl
  case sdestroy => split <;> rfl
  case smpdestroy => split <;> rfl
  case sclear => rw [fillSurface_setArg]; rfl
  case sputpix => rw [setPixel_setArg]; rfl
  case blitMasked => rw [blit_setArg]; rfl
  case blitStretch => rw [blit_setArg]; rfl
  case smpwrite => rw [setSampleByte_setArg]; rfl
  case pinit => exact initPool_setArg s k x _
  case vstart => rw [startVoice_setArg]; rfl
  case vsetpos => rw [setPosition_setArg]; rfl
  case vsetfreq => rw [setRate_setArg]; rfl
  case vsweepfreq => rw [setRate_setArg]; rfl
  case vsetvol => rw [setVol_setArg]; rfl
  case vrampvol => rw [setVol_setArg]; rfl
  case vsetpan => rw [setPan_setArg]; rfl
  all_goals rfl

/-- A command runs the same whatever an argument above its operand count holds. -/
theorem exec_setArg {i : Instr} {t : State} (hk : (slots i).length ≤ k.val) (h : exec i s = .next t) :
    exec i (s.setArg k x) = .next (t.setArg k x) := by
  have hchecks := congrArg firstFault (checksOf_setArg s k x hk)
  rcases exec_cases h with ⟨c, hc, rfl⟩ | ⟨hc, rfl⟩
  · rw [exec_fail (hchecks.trans hc), raiseFault_setArg]
  · rw [exec_pass (hchecks.trans hc), effectOf_setArg s k x hk]

end

/-- No command writes an ARG. -/
theorem exec_args {i : Instr} {s t : State} (h : exec i s = .next t) : t.args = s.args := by
  rcases exec_cases h with ⟨c, -, rfl⟩ | ⟨-, rfl⟩
  · exact State.raiseFault_args s c
  · exact (effect_untouched i s).args

/-- Settles O9: the host reads and writes ARG[k] alone, and a command runs the same whatever an unused ARG holds. -/
theorem argumentRegisters : Obligations.ArgumentRegisters := by
  refine ⟨fun s k v rest => ⟨fun hp => ?_, fun hp => ?_, Vector.getElem_set_self _, fun j hj => getElem_set_ne _ hj v⟩,
    fun i s t h => ?_, fun i s t k v hk h => ?_⟩
  · exact step_write hp (admittedReg_of_regAt (by omega) (by omega) (regAt_arg s.cfg k))
  · exact step_read hp (admittedReg_of_regAt (by omega) (by omega) (regAt_arg s.cfg k))
  · exact exec_args h
  · have ht : t.setArg k v = { t with args := s.args.set k v } := by rw [State.setArg, exec_args h]
    exact (exec_setArg s k v hk h).trans (congrArg _ ht)

end Sys2Proof.Machine

/-! The bus access rule, the display reader, and the canonical form of both tables and every buffer (20_memory.md R37, R39,
R42, R45, R53). -/

namespace Sys2Proof

/-! ### The admitted access (R39) -/

/-- What an admitted access is, and the register it names. -/
theorem admittedReg_eq_ok {c : Config} {off size : Nat} {r : Reg} :
    admittedReg c off size = .ok r ↔ size = 4 ∧ off % 4 = 0 ∧ off < 0x1000 ∧ regAt c off = some r := by
  constructor
  · intro h
    unfold admittedReg at h
    (repeat' split at h) <;> cases h
    rename_i hsize hal hwin _ hr
    exact ⟨not_not.mp hsize, not_not.mp hal, Nat.lt_of_not_le hwin, hr⟩
  · rintro ⟨rfl, hal, hwin, hr⟩
    exact admittedReg_of_regAt hal hwin hr

theorem admittedReg_error {c : Config} {off size : Nat}
    (h : ∀ r, ¬(size = 4 ∧ off % 4 = 0 ∧ off < 0x1000 ∧ regAt c off = some r)) :
    ∃ e, admittedReg c off size = .error e := by
  cases ha : admittedReg c off size with
  | error e => exact ⟨e, rfl⟩
  | ok r => exact absurd (admittedReg_eq_ok.mp ha) (h r)

end Sys2Proof

namespace Sys2Proof.Machine

/-! ### The canonical form of a table of buffers (R37) -/

/-- A table whose numbers strictly rise and each of whose entries holds a canonical buffer. -/
def Table.Canonical {α : Type} (buffer : α → Memory) (t : Table α) : Prop :=
  Table.rising t ∧ ∀ e ∈ t, Memory.wf (buffer e.2)

/-- The surface table is canonical (R29, R42). -/
abbrev State.surfacesCanonical (s : State) : Prop := Table.Canonical Surface.pix s.surfaces

/-- The sample table is canonical (R31, R42). -/
abbrev State.samplesCanonical (s : State) : Prop := Table.Canonical Sample.data s.samples

theorem State.memoryWf_iff {s : State} : s.memoryWf ↔ s.surfacesCanonical ∧ s.samplesCanonical :=
  ⟨fun ⟨hsurf, hsmp, hpix, hdata⟩ => ⟨⟨hsurf, hpix⟩, hsmp, hdata⟩,
    fun ⟨⟨hsurf, hpix⟩, hsmp, hdata⟩ => ⟨hsurf, hsmp, hpix, hdata⟩⟩

section

variable {α : Type} {buffer : α → Memory} {t : Table α}

theorem Table.Canonical.insert (ht : Table.Canonical buffer t) (a : Nat) {x : α} (hx : Memory.wf (buffer x)) :
    Table.Canonical buffer (Table.insert t a x) :=
  ⟨Table.rising_insert ht.1 a x, fun _ he => (Table.mem_insert he).elim (fun e => e ▸ hx) (ht.2 _)⟩

theorem Table.Canonical.erase (ht : Table.Canonical buffer t) (a : Nat) : Table.Canonical buffer (Table.erase t a) :=
  ⟨Table.rising_erase ht.1 a, fun _ he => ht.2 _ (Table.mem_erase he)⟩

end

/-! ### Writes of pixels and of sample data (R42) -/

theorem setPixel_surfacesCanonical {s : State} (hs : s.surfacesCanonical) (h x y : Nat) (v : Byte) :
    (s.setPixel h x y v).surfacesCanonical := by
  cases hS : s.surface? h with
  | none => simpa only [State.setPixel, hS] using hs
  | some S =>
    rw [State.setPixel_eq hS]
    exact hs.insert h (Memory.wf_write (hs.2 _ (State.surface?_mem hS)) _ v)

theorem copyPixel_surfacesCanonical {s : State} (hs : s.surfacesCanonical) (src sx sy dst dx dy : Nat) :
    (s.copyPixel src sx sy dst dx dy).surfacesCanonical := by
  unfold State.copyPixel
  split
  · exact hs
  · exact setPixel_surfacesCanonical hs _ _ _ _

theorem blit_surfacesCanonical {s : State} (hs : s.surfacesCanonical) (src dst : Nat) (sx sy : Nat → Nat)
    (dstX dstY w h : Nat) : (s.blit src dst sx sy dstX dstY w h).surfacesCanonical :=
  forUpto_keeps (P := State.surfacesCanonical) hs fun _ _ _ ht =>
    forUpto_keeps (P := State.surfacesCanonical) ht fun _ _ _ hu =>
      copyPixel_surfacesCanonical hu _ _ _ _ _ _

theorem fillSurface_surfacesCanonical {s : State} (hs : s.surfacesCanonical) (h : Nat) (c : Byte) :
    (s.fillSurface h c).surfacesCanonical :=
  forUpto_keeps (P := State.surfacesCanonical) hs fun _ _ _ ht =>
    forUpto_keeps (P := State.surfacesCanonical) ht fun _ _ _ hu =>
      setPixel_surfacesCanonical hu _ _ _ _

theorem setSampleByte_samplesCanonical {s : State} (hs : s.samplesCanonical) (m i : Nat) (v : Byte) :
    (s.setSampleByte m i v).samplesCanonical := by
  cases hM : s.sample? m with
  | none => simpa only [State.setSampleByte, hM] using hs
  | some M =>
    rw [State.setSampleByte_eq hM]
    exact hs.insert m (Memory.wf_write (hs.2 _ (State.sample?_mem hM)) i v)

/-! ### Every command and every step -/

theorem effect_surfacesCanonical {i : Instr} {s : State} (hs : s.surfacesCanonical) :
    (effectOf s i).surfacesCanonical := by
  cases hw : writesSurfaces i with
  | false => rw [State.surfacesCanonical, effect_surfaces_alone s hw]; exact hs
  | true =>
    cases i <;> simp only [writesSurfaces, Bool.false_eq_true] at hw
    case screate =>
      simp only [effectOf]
      split
      · exact hs
      · exact hs.insert _ (Memory.wf_ofDraw _ _)
    case sdestroy =>
      simp only [effectOf]
      split
      · exact hs
      · exact hs.erase _
    case sclear => exact fillSurface_surfacesCanonical hs _ _
    case sputpix => exact setPixel_surfacesCanonical hs _ _ _ _
    case blitMasked => exact blit_surfacesCanonical hs _ _ _ _ _ _ _ _
    case blitStretch => exact blit_surfacesCanonical hs _ _ _ _ _ _ _ _

theorem effect_samplesCanonical {i : Instr} {s : State} (hs : s.samplesCanonical) :
    (effectOf s i).samplesCanonical := by
  cases hw : writesSamples i with
  | false => rw [State.samplesCanonical, effect_samples_alone s hw]; exact hs
  | true =>
    rcases writesSamples_iff.mp hw with rfl | rfl | rfl
    · simp only [effectOf]
      split
      · exact hs
      · exact hs.insert _ (newSample_wf _ _ _ _ _).1
    · simp only [effectOf]
      split
      · exact hs
      · exact hs.erase _
    · exact setSampleByte_samplesCanonical hs _ _ _

theorem raiseFault_memoryWf {s : State} (hs : s.memoryWf) (c : FaultCode) : (s.raiseFault c).memoryWf := by
  rw [State.memoryWf, State.raiseFault_surfaces, State.raiseFault_samples]
  exact hs

theorem exec_memoryWf {i : Instr} {s t : State} (hs : s.memoryWf) (h : exec i s = .next t) : t.memoryWf := by
  rcases exec_cases h with ⟨c, -, rfl⟩ | ⟨-, rfl⟩
  · exact raiseFault_memoryWf hs c
  · obtain ⟨hsurf, hsmp⟩ := State.memoryWf_iff.mp hs
    exact State.memoryWf_iff.mpr ⟨effect_surfacesCanonical hsurf, effect_samplesCanonical hsmp⟩

theorem runCommandWord_memoryWf {w : Word} {s t : State} (hs : s.memoryWf) (h : runCommandWord w s = .next t) :
    t.memoryWf := by
  rcases runCommandWord_cases h with ⟨i, -, hi⟩ | ⟨-, rfl⟩
  · exact exec_memoryWf (s := { s with cmd := w }) hs hi
  · exact raiseFault_memoryWf (s := { s with cmd := w }) hs _

/-- Settles O28: only a command word and reset reach the tables; reset empties them, and a command inserts or erases an entry,
writes single bytes, or fills a new buffer from the oracle's draw, each of which keeps the canonical form. -/
theorem everyStepKeepsMemoryCanonical : Obligations.EveryStepKeepsMemoryCanonical := by
  intro s t hs h
  rcases step_cases h with
    ⟨-, rfl⟩ | ⟨e, rest, -, ⟨-, r, rfl⟩ | ⟨-, r, rfl⟩ | ⟨-, a, rfl⟩ | ⟨off, w, -, -, hrun⟩ | ⟨-, rfl⟩⟩
  · exact hs
  · exact hs
  · exact hs
  · exact hs
  · exact runCommandWord_memoryWf (s := { s with pending := rest }) hs hrun
  · exact reset_memoryWf s.cfg

/-! ### The events (R39, R53) -/

/-- A pending event is taken off the list and happens. -/
theorem step_event {s : State} {e : Event} {rest : List Event} (hp : s.pending = e :: rest) :
    step s = perform e { s with pending := rest } := by
  rw [step, nextEvent, hp]

theorem writeReg_readOnly {r : Reg} (hcmd : r ≠ .cmd) (harg : ∀ k, r ≠ .arg k) (v : Word) (s : State) :
    writeReg r v s = .next s := by
  cases r
  case cmd => exact absurd rfl hcmd
  case arg k => exact absurd rfl (harg k)
  all_goals rfl

theorem busAccess_read_refused {s : State} {off size : Nat} {e : AccessError}
    (h : admittedReg s.cfg off size = .error e) :
    busAccess (.read off size) s = .refused (refusalOf s.cfg.busErrorResponse e) := by
  simp only [busAccess, h]

theorem busAccess_write_refused {s : State} {off size : Nat} {v : Word} {e : AccessError}
    (h : admittedReg s.cfg off size = .error e) :
    busAccess (.write off size v) s = .refused (refusalOf s.cfg.busErrorResponse e) := by
  simp only [busAccess, h]

/-- Settles O6: an admitted access goes by the register it names, and any other is refused under the name of its error. -/
theorem busAccessRule : Obligations.BusAccessRule := by
  refine fun s off size v rest => ⟨fun hp r hr => ?_, fun hp r hr => ?_, fun hp hnone => ?_⟩
  · have hreg := admittedReg_eq_ok.mpr hr
    obtain ⟨rfl, -⟩ := hr
    exact step_read hp hreg
  · have hreg := admittedReg_eq_ok.mpr hr
    obtain ⟨rfl, -⟩ := hr
    have hwrite := step_write hp hreg
    refine ⟨?_, ?_, fun hcmd harg => hwrite.trans (writeReg_readOnly hcmd harg v _)⟩
    · rintro rfl
      exact hwrite
    · rintro k rfl
      exact hwrite
  · obtain ⟨e, he⟩ := admittedReg_error hnone
    rcases hp with hp | hp
    · exact ⟨_, (step_event hp).trans (busAccess_read_refused he)⟩
    · exact ⟨_, (step_event hp).trans (busAccess_write_refused he)⟩

/-- Settles O12: the pixel's address exists, so the read is admitted, and it sees the state as the last event left it. -/
theorem displayReaderSeesPixels : Obligations.DisplayReaderSeesPixels := by
  intro s h x y rest hp hlive hx hy
  rw [step_event hp]
  exact if_pos ⟨hlive, hx, hy⟩

end Sys2Proof.Machine

/-! The command word and the assembled command statement (30_encoding.md R54 to R61). -/

namespace Sys2Proof

/-! ### The decoder (R54, R55, R59) -/

theorem decode_encode (i : Instr) : decode (encode i) = .ok i := by cases i <;> rfl

theorem decode_eq_ok {w : Word} {i : Instr} : decode w = .ok i ↔ w = encode i :=
  ⟨eq_encode_of_decode, fun h => h ▸ decode_encode i⟩

theorem Instr.mem_all (i : Instr) : i ∈ Instr.all := by cases i <;> decide

/-- The rows of R55, each command with its word. -/
def wordRows : List (Instr × Word) := Instr.all.map fun i => (i, encode i)

theorem mem_wordRows {w : Word} {i : Instr} : (i, w) ∈ wordRows ↔ w = encode i := by
  rw [wordRows, List.mem_map]
  constructor
  · rintro ⟨j, -, hj⟩
    cases hj
    rfl
  · rintro rfl
    exact ⟨i, i.mem_all, rfl⟩

/-- Settles O2: each word is looked up in the opcode map, and a word found there has no bit above its opcode. -/
theorem decodeAndEncodeAgree : Obligations.DecodeAndEncodeAgree :=
  ⟨decode_encode, fun _ _ => eq_encode_of_decode⟩

/-- Settles O1: a word decodes to a command exactly when it is the command's, and the table pairs each command with its word. -/
theorem opcodeMapIsTheTable : Obligations.OpcodeMapIsTheTable :=
  fun _ _ => decode_eq_ok.trans mem_wordRows.symm

/-- Settles O4: the six command words are encodings, and the other two are rejected for a bit above the opcode and for an
opcode of no row. -/
theorem sampleWordsDecode : Obligations.SampleWordsDecode :=
  ⟨decode_encode .nop, decode_encode .screate, decode_encode .blitStretch, decode_encode .smpinfo, decode_encode .valloc,
    decode_encode .vrampvol, rfl, rfl⟩

/-! ### The reserved words (R58) -/

/-- The words R58 reserves: a bit above the opcode is set, or the opcode lies in a range of no row. -/
def ReservedWord (w : Word) : Prop :=
  let op := w.toNat % 256
  w.toNat / 256 ≠ 0 ∨ (0x01 ≤ op ∧ op ≤ 0x0F) ∨ (0x16 ≤ op ∧ op ≤ 0x1F) ∨ (0x22 ≤ op ∧ op ≤ 0x2F) ∨
    (0x35 ≤ op ∧ op ≤ 0x3F) ∨ (0x43 ≤ op ∧ op ≤ 0x4F) ∨ (0x59 ≤ op ∧ op ≤ 0xFF)

theorem not_reservedWord_encode (i : Instr) : ¬ReservedWord (encode i) := by
  unfold ReservedWord
  cases i <;> decide

/-- Outside the reserved ranges only the 26 opcodes of R55 are left. -/
theorem exists_encode_of_not_reservedWord {w : Word} (h : ¬ReservedWord w) : ∃ i, w = encode i := by
  have hmem : w.toNat ∈ Instr.all.map fun i => (encode i).toNat := by
    have hrows : (Instr.all.map fun i => (encode i).toNat) =
        [0x00, 0x10, 0x11, 0x12, 0x13, 0x14, 0x15, 0x20, 0x21, 0x30, 0x31, 0x32, 0x33, 0x34, 0x40, 0x41, 0x42,
          0x50, 0x51, 0x52, 0x53, 0x54, 0x55, 0x56, 0x57, 0x58] := rfl
    rw [hrows]
    simp only [List.mem_cons, List.not_mem_nil, or_false]
    unfold ReservedWord at h
    omega
  obtain ⟨i, -, hi⟩ := List.mem_map.mp hmem
  exact ⟨i, BitVec.eq_of_toNat_eq hi.symm⟩

/-- The decoder rejects exactly the reserved words. -/
theorem reservedWord_iff {w : Word} : ReservedWord w ↔ ∃ e, decode w = .error e := by
  constructor
  · intro h
    cases hd : decode w with
    | error e => exact ⟨e, rfl⟩
    | ok i => exact absurd (eq_encode_of_decode hd ▸ h) (not_reservedWord_encode i)
  · rintro ⟨e, he⟩
    by_contra h
    obtain ⟨i, rfl⟩ := exists_encode_of_not_reservedWord h
    rw [decode_encode] at he
    cases he

end Sys2Proof

namespace Sys2Proof.Machine

/-! ### The command cycle (R58, R63) -/

theorem runCommandWord_ok {w : Word} {i : Instr} (h : decode w = .ok i) (s : State) :
    runCommandWord w s = exec i { s with cmd := w } := by rw [runCommandWord, h]

theorem runCommandWord_encode (i : Instr) (s : State) :
    runCommandWord (encode i) s = exec i { s with cmd := encode i } := runCommandWord_ok (decode_encode i) s

theorem runCommandWord_error {w : Word} {e : DecodeError} (h : decode w = .error e) (s : State) :
    runCommandWord w s = .next ({ s with cmd := w }.raiseFault .illegal) := by rw [runCommandWord, h]

/-- Settles O3: the decoder rejects exactly the reserved words, every other word is a command's, and 0 is NOP's. -/
theorem everyOtherWordIsIllegal : Obligations.EveryOtherWordIsIllegal := by
  refine fun w s => ⟨fun h => ?_, fun h => ?_, ?_⟩
  · obtain ⟨e, he⟩ := reservedWord_iff.mp h
    exact runCommandWord_error he s
  · obtain ⟨i, rfl⟩ := exists_encode_of_not_reservedWord h
    exact ⟨i, decode_encode i, runCommandWord_encode i s⟩
  · rintro rfl
    exact runCommandWord_encode .nop s

/-! ### Running assembled accesses (R60) -/

/-- Every command reads at most the ten argument registers (R56). -/
theorem slots_length_le (i : Instr) : (slots i).length ≤ 10 := by cases i <;> decide

theorem argWrites_length (k : Nat) (ops : List Word) : (argWrites k ops).length = ops.length := by
  induction ops generalizing k with
  | nil => rfl
  | cons op ops ih => rw [argWrites, List.length_cons, ih, List.length_cons]

/-- The argument registers with the operands stored from ARG[k] on. -/
def loadArgs (args : Vector Word 10) (k : Nat) (ops : List Word) : Vector Word 10 :=
  Vector.ofFn fun j => if j.val < k then args[j] else (ops[j.val - k]?).getD args[j]

theorem loadArgs_getElem (args : Vector Word 10) (k : Nat) (ops : List Word) {j : Nat} (hj : j < 10) :
    (loadArgs args k ops)[j] = if j < k then args[j] else (ops[j - k]?).getD args[j] :=
  Vector.getElem_ofFn hj

theorem loadArgs_nil (args : Vector Word 10) (k : Nat) : loadArgs args k [] = args := by
  ext j hj
  simp [loadArgs_getElem]

/-- Storing the first operand and then the others. -/
theorem loadArgs_set (args : Vector Word 10) {k : Nat} (hk : k < 10) (op : Word) (ops : List Word) :
    loadArgs (args.set k op hk) (k + 1) ops = loadArgs args k (op :: ops) := by
  ext j hj
  rw [loadArgs_getElem, loadArgs_getElem]
  rcases Nat.lt_trichotomy j k with h | rfl | h
  · rw [if_pos (Nat.lt_succ_of_lt h), if_pos h, Vector.getElem_set_ne _ _ (Nat.ne_of_gt h)]
  · rw [if_pos (Nat.lt_succ_self j), if_neg (Nat.lt_irrefl j), Vector.getElem_set_self, Nat.sub_self]
    rfl
  · have hsub : j - k = j - (k + 1) + 1 := by omega
    rw [if_neg (by omega), if_neg (by omega), Vector.getElem_set_ne _ _ (Nat.ne_of_lt h), hsub, List.getElem?_cons_succ]

/-- A step with a write of an admitted register laid before the block performs the write. -/
theorem step_withAccesses {s : State} {off : Nat} {r : Reg} (hr : admittedReg s.cfg off 4 = .ok r) (v : Word)
    (l : List BusAccess) : step (s.withAccesses (.write off 4 v :: l)) = writeReg r v (s.withAccesses l) :=
  step_write (s := s.withAccesses (.write off 4 v :: l)) rfl hr

/-- The argument writes of a statement store its operands, one a step. -/
theorem run_argWrites {k : Nat} {ops : List Word} (hk : k + ops.length ≤ 10) (s : State) (l : List BusAccess) (m : Nat) :
    core.run (m + ops.length) (s.withAccesses (argWrites k ops ++ l)) =
      core.run m ({ s with args := loadArgs s.args k ops }.withAccesses l) := by
  induction ops generalizing k s with
  | nil => rw [loadArgs_nil]; rfl
  | cons op ops ih =>
    rw [List.length_cons] at hk
    have hk10 : k < 10 := by omega
    have hreg : admittedReg s.cfg (0x020 + 4 * k) 4 = .ok (.arg ⟨k, hk10⟩) :=
      admittedReg_of_regAt (by omega) (by omega) (regAt_arg s.cfg ⟨k, hk10⟩)
    rw [← loadArgs_set s.args hk10]
    exact (core_run_next (step_withAccesses hreg op _)).trans (ih (by omega) { s with args := s.args.set k op hk10 })

/-- A run of one step is the step. -/
theorem core_run_one (s : State) : core.run 1 s = step s := by
  cases h : core.step s <;> simp only [Host.Core.run, h] <;> exact h.symm

/-- One step from a pending CMD write runs the command. -/
theorem run_cmdWrite (s : State) (i : Instr) :
    core.run 1 (s.withAccesses [.write 0x000 4 (encode i)]) = exec i { s with cmd := encode i } := by
  rw [core_run_one, step_withAccesses (r := .cmd) rfl]
  exact runCommandWord_encode i s

/-- Settles O14: the argument writes store the operands, and the CMD write after them runs the command. -/
theorem assembledCommandRuns : Obligations.AssembledCommandRuns := by
  refine fun i ops => ⟨fun h => if_neg h, fun h => ⟨_, if_pos h, ?_, fun s => ⟨loadArgs s.args 0 ops, ?_, ?_, ?_⟩⟩⟩
  · rw [List.length_append, argWrites_length, List.length_singleton]
  · intro k hk
    simp [loadArgs_getElem, hk]
  · intro k hk
    simp [loadArgs_getElem, hk]
  · have hk : 0 + ops.length ≤ 10 := by rw [Nat.zero_add, h]; exact slots_length_le i
    rw [Nat.add_comm, run_argWrites hk, run_cmdWrite]

/-- Settles O15: a pseudo-instruction assembles as the command of its expansion. -/
theorem pseudoInstructionsExpand : Obligations.PseudoInstructionsExpand :=
  ⟨fun _ _ _ _ => rfl, fun _ => rfl, fun _ => rfl, fun _ => rfl⟩

end Sys2Proof.Machine

/-! What a fault does, which fault a command reports (40_general.md R64, R65), and NOP (R66). -/

namespace Sys2Proof.Machine

/-! ### Raising a fault (R64) -/

theorem State.raiseFault_first {s : State} (hf : s.fault = none) (c : FaultCode) :
    s.raiseFault c = { s with status := .fault c, fault := some c, faultCmd := s.cmd } := by
  rw [State.raiseFault, hf]

theorem State.raiseFault_latched {s : State} (hf : s.fault ≠ none) (c : FaultCode) :
    s.raiseFault c = { s with status := .fault c } := by
  obtain ⟨d, hd⟩ := Option.ne_none_iff_exists'.mp hf
  rw [State.raiseFault, hd]

/-- Settles O16: a command that ends with a fault in STATUS has not had its effect, which ends without one, so it has done
nothing but raise the fault of its first failing check. -/
theorem faultDoesNothingElse : Obligations.FaultDoesNothingElse := by
  refine ⟨fun s c => ⟨(State.raiseFault_first · c), (State.raiseFault_latched · c)⟩, fun i s t c h hst => ?_⟩
  rcases exec_cases h with ⟨d, -, rfl⟩ | ⟨-, rfl⟩
  · rw [State.raiseFault_status, Status.fault.injEq] at hst
    rw [hst]
  · have hok := effect_status i s
    rw [hst] at hok
    cases hok

/-! ### The order of the checks (R65) -/

/-- No check of a command looks at CMD. -/
theorem checksOf_cmd (i : Instr) (s : State) (w : Word) : checksOf { s with cmd := w } i = checksOf s i := by
  cases i <;> rfl

/-- A check that passes can be left out. -/
theorem firstFault_append_passing (l m : List Check) (c : FaultCode) :
    firstFault (l ++ (true, c) :: m) = firstFault (l ++ m) := by
  rw [firstFault_append, firstFault_append, firstFault_cons, if_pos rfl]

/-- The order of R65 lists the checks the command makes, and beside them only those of class `u32`, which always pass: the first
fault is the same. -/
theorem firstFault_orderedChecks (i : Instr) (s : State) : firstFault (orderedChecks s i) = firstFault (checksOf s i) := by
  cases i
  case smpcreate =>
    have hlast := firstFault_append_passing [bitsCheck s 0, channelsCheck s 1, (true, .badArg)] [] .badArg
    exact hlast.trans (firstFault_append_passing [bitsCheck s 0, channelsCheck s 1] [] .badArg)
  case smpwrite => exact firstFault_append_passing [smpCheck s 0] [byteCheck s 2, offsetCheck s] .badArg
  case smpread => exact firstFault_append_passing [smpCheck s 0] [offsetCheck s] .badArg
  case vsweepfreq =>
    have hlast := firstFault_append_passing (voiceChecks s ++ [(true, .badArg)]) [] .badArg
    exact hlast.trans (firstFault_append_passing (voiceChecks s) [] .badArg)
  case vrampvol => exact firstFault_append_passing (voiceChecks s) [byteCheck s 2] .badArg
  case vplaymode | vsetpos | vsetfreq => exact firstFault_append_passing (voiceChecks s) [] .badArg
  -- No operand of the others is of class `u32`, and the two lists are the same.
  all_goals exact congrArg firstFault rfl

/-- Settles O19: the checks in the order of R65 and the command's own have the same first fault, whatever CMD holds. -/
theorem faultPrecedence : Obligations.FaultPrecedence := by
  intro w s
  have hfirst : ∀ i, firstFault (checksOf { s with cmd := w } i) = firstFault (orderedChecks s i) := fun i => by
    rw [checksOf_cmd, firstFault_orderedChecks]
  refine ⟨fun e he => runCommandWord_error he s, fun i c hi hc => ?_, fun i hi hnone => ?_⟩
  · exact (runCommandWord_ok hi s).trans (exec_fail ((hfirst i).trans hc))
  · exact ⟨_, (runCommandWord_ok hi s).trans (exec_pass ((hfirst i).trans hnone)), effect_status i _⟩

/-! ### NOP (R66) -/

/-- Settles O30: NOP makes no check, and its effect is to complete with OK and RESULT 0. -/
theorem nopCompletes : Obligations.NopCompletes := ⟨rfl, fun _ => exec_pass rfl⟩

end Sys2Proof.Machine

/-! The surface commands (41_surface.md R67 to R72): the faults of each from its list of checks, and each effect as what it
writes of one surface and what it leaves. -/

namespace Sys2Proof.Machine

/-! ### Checks -/

/-- Checks that all raise one code raise it exactly when one of them fails. -/
theorem firstFault_of_code {l : List Check} {c : FaultCode} (hcode : ∀ d ∈ l, d.2 = c) :
    firstFault l = if ∀ d ∈ l, d.1 = true then none else some c := by
  split
  case isTrue hpass => exact firstFault_eq_none.mpr hpass
  case isFalse hfail =>
    cases hf : firstFault l with
    | none => exact absurd (firstFault_eq_none.mp hf) hfail
    | some d => rw [← hcode _ (firstFault_mem hf)]

theorem firstFault_surf_dead {s : State} {k : Fin 10} (hdead : s.liveSurface (s.argN k) = false) (l : List Check) :
    firstFault (surfCheck s k :: l) = some .badHandle := by
  rw [firstFault_cons, surfCheck, hdead, if_neg Bool.false_ne_true]

theorem firstFault_surf_live {s : State} {k : Fin 10} (hlive : s.liveSurface (s.argN k) = true) (l : List Check) :
    firstFault (surfCheck s k :: l) = firstFault l := by
  rw [firstFault_cons, surfCheck, if_pos hlive]

theorem firstFault_screate (s : State) : firstFault (checksOf s .screate) =
    if (1 ≤ s.argN 0 ∧ s.argN 0 ≤ 65535) ∧ (1 ≤ s.argN 1 ∧ s.argN 1 ≤ 65535) then none else some .badArg := by
  rw [checksOf, firstFault_of_code (c := .badArg) (by simp [dimCheck])]
  simp [dimCheck]

theorem firstFault_sclear {s : State} (hlive : s.liveSurface (s.argN 0) = true) :
    firstFault (checksOf s .sclear) = if s.argN 1 ≤ 255 then none else some .badArg := by
  rw [checksOf, firstFault_surf_live hlive]
  simp [byteCheck]

theorem firstFault_sgetpix {s : State} (hlive : s.liveSurface (s.argN 0) = true) :
    firstFault (checksOf s .sgetpix) = if s.argN 1 < 2 ^ 16 ∧ s.argN 2 < 2 ^ 16 then none else some .badArg := by
  rw [checksOf, firstFault_surf_live hlive, firstFault_of_code (c := .badArg) (by simp [c16Check])]
  simp [c16Check]

theorem firstFault_sputpix {s : State} (hlive : s.liveSurface (s.argN 0) = true) :
    firstFault (checksOf s .sputpix) =
      if s.argN 1 < 2 ^ 16 ∧ s.argN 2 < 2 ^ 16 ∧ s.argN 3 ≤ 255 then none else some .badArg := by
  rw [checksOf, firstFault_surf_live hlive, firstFault_of_code (c := .badArg) (by simp [c16Check, byteCheck])]
  simp [c16Check, byteCheck]

/-! ### SCREATE (R45, R67) -/

/-- The allocation oracle's answer is taken over when it names a handle of the table that is not live (R45). -/
theorem admittedHandle_of_dead {max : Nat} {live : Nat → Bool} {r : Nat} (h1 : 1 ≤ r) (hmax : r ≤ max)
    (hdead : live r = false) : admittedHandle max live (some r) = some r :=
  if_pos ⟨h1, hmax, hdead⟩

/-- The surface SCREATE makes: its dimensions are the operands, its bytes the oracle's draw. -/
def State.drawnSurface (s : State) : Surface where
  w := BitVec.ofNat 16 (s.argN 0)
  h := BitVec.ofNat 16 (s.argN 1)
  pix := Memory.ofDraw ((BitVec.ofNat 16 (s.argN 0)).toNat * (BitVec.ofNat 16 (s.argN 1)).toNat) s.nextAnswer.contents

theorem effect_screate_none {s : State} (ha : s.allocSurface = none) :
    effectOf s .screate = s.asking.complete .allocFail 0 := by
  rw [effectOf, ha]

theorem effect_screate_some {s : State} {r : Nat} (ha : s.allocSurface = some r) :
    effectOf s .screate = (s.asking.putSurface r s.drawnSurface).complete .ok (BitVec.ofNat 32 r) := by
  rw [effectOf, ha]; rfl

theorem effect_screate_surface? {s : State} {r : Nat} (ha : s.allocSurface = some r) (h : Nat) :
    (effectOf s .screate).surface? h = if h = r then some s.drawnSurface else s.surface? h := by
  obtain ⟨h1, -⟩ := admittedHandle_some ha
  rw [effect_screate_some ha]
  exact State.surface?_putSurface s.asking (Nat.ne_of_gt h1) _ h

/-- An operand that fits a field is kept whole by it. -/
theorem toNat_field {w n : Nat} (hn : n < 2 ^ w) : (BitVec.ofNat w n).toNat = n := by
  rw [BitVec.toNat_ofNat, Nat.mod_eq_of_lt hn]

theorem drawnSurface_dims {s : State} (hw : s.argN 0 ≤ 65535) (hh : s.argN 1 ≤ 65535) :
    s.drawnSurface.w.toNat = s.argN 0 ∧ s.drawnSurface.h.toNat = s.argN 1 :=
  ⟨toNat_field (Nat.lt_succ_of_le hw), toNat_field (Nat.lt_succ_of_le hh)⟩

theorem read_drawnSurface {s : State} (hw : s.argN 0 ≤ 65535) (hh : s.argN 1 ≤ 65535) {a : Nat}
    (ha : a < s.argN 0 * s.argN 1) : Memory.read s.drawnSurface.pix a =
      ((s.nextAnswer.contents.find? (fun c => c.1 = a)).map Prod.snd).getD 0 := by
  obtain ⟨hw', hh'⟩ := drawnSurface_dims hw hh
  rw [← hw', ← hh'] at ha
  exact Memory.read_ofDraw _ _ ha

/-- Settles O31: the two range checks, then the two answers of the oracle, then which answers it can give. -/
theorem screateMakesASurface : Obligations.ScreateMakesASurface := by
  refine ⟨rfl, fun s => ⟨fun hbad => ?_, fun hok hnone => ?_, fun hok r hr => ?_, fun r h1 hmax hdead hans => ?_,
    fun hans => ?_, fun hfull => admittedHandle_full hfull _⟩⟩
  · exact exec_fail ((firstFault_screate s).trans (if_neg hbad))
  · exact ⟨_, exec_pass ((firstFault_screate s).trans (if_pos hok)), by rw [effect_screate_none hnone]; rfl⟩
  · obtain ⟨h1, hmax, hdead⟩ := admittedHandle_some hr
    have hsurf := effect_screate_surface? hr
    have hexec := exec_pass ((firstFault_screate s).trans (if_pos hok))
    obtain ⟨⟨-, hw⟩, -, hh⟩ := hok
    obtain ⟨hdw, hdh⟩ := drawnSurface_dims hw hh
    exact ⟨_, s.drawnSurface, hexec, by rw [effect_screate_some hr]; rfl, h1, hmax, hdead, (hsurf r).trans (if_pos rfl),
      hdw, hdh, fun a => read_drawnSurface hw hh, fun h hne => (hsurf h).trans (if_neg hne)⟩
  · rw [State.allocSurface, hans]
    exact admittedHandle_of_dead h1 hmax hdead
  · rw [State.allocSurface, hans]; rfl

/-! ### SDESTROY (R68) -/

theorem firstFault_sdestroy (s : State) : firstFault (checksOf s .sdestroy) =
    if s.argN 0 = 0 ∨ s.liveSurface (s.argN 0) = true then none else some .badHandle := by
  simp [checksOf, surf0Check]

/-- Settles O32: a handle that is dead and not 0 fails the one check, handle 0 takes the null branch of the effect, and a live
handle, not being 0, the other. -/
theorem sdestroyEndsASurface : Obligations.SdestroyEndsASurface := by
  refine ⟨rfl, fun s => ⟨fun h0 hdead => ?_, fun h0 => ?_, fun hlive => ?_⟩⟩
  · exact exec_fail ((firstFault_sdestroy s).trans (if_neg (by simp [h0, hdead])))
  · rw [exec_pass ((firstFault_sdestroy s).trans (if_pos (.inl h0))), effectOf, if_pos h0]; rfl
  · obtain ⟨S, hS⟩ := State.liveSurface_iff.mp hlive
    have hsurf := effect_sdestroy_surface? s
    refine ⟨_, exec_pass ((firstFault_sdestroy s).trans (if_pos (.inr hlive))), ?_, ?_, fun h hne => ?_⟩
    · rw [effectOf, if_neg (State.surface?_ne_zero hS)]; rfl
    · rw [State.liveSurface_false, hsurf, if_pos rfl]
    · rw [hsurf, if_neg hne]

/-! ### Bytes of a surface (R42) -/

theorem State.pixel_eq_surfaceByte (s : State) (h x y : Nat) :
    s.pixel h x y = s.surfaceByte h (y * s.width h + x) := by
  unfold State.pixel State.surfaceByte State.width
  cases s.surface? h <;> rfl

/-- A command that paints a surface and completes OK changes nothing but its pixels, STATUS and RESULT. -/
theorem Painted.pixelsOnly {h : Nat} {s t : State} (a : Painted h s t) : PixelsOnly s (t.complete .ok 0) h :=
  ⟨by rw [a.rest]; rfl, a.others, a.width h, a.height h, a.liveSurface h⟩

/-- `t` is `s` but for the `n` bytes from `lo` on in the buffer of surface `h`, which hold `c`. -/
structure Filled (h lo n : Nat) (c : Byte) (s t : State) : Prop extends Painted h s t where
  byte : ∀ a, t.surfaceByte h a = if lo ≤ a ∧ a < lo + n then c else s.surfaceByte h a

theorem Filled.refl (h lo : Nat) (c : Byte) (s : State) : Filled h lo 0 c s s :=
  ⟨Painted.refl h s, fun a => by rw [if_neg (by omega)]⟩

/-- Filling a stretch of bytes and then the stretch after it fills both. -/
theorem Filled.trans {h lo m n : Nat} {c : Byte} {s t u : State} (a : Filled h lo m c s t)
    (b : Filled h (lo + m) n c t u) : Filled h lo (m + n) c s u where
  toPainted := a.toPainted.trans b.toPainted
  byte i := by
    rw [b.byte, a.byte]
    by_cases hlater : lo + m ≤ i ∧ i < lo + m + n
    · rw [if_pos hlater, if_pos (by omega)]
    · rw [if_neg hlater]
      exact if_congr (by omega) rfl rfl

/-- A pixel write fills the one byte at the pixel's address. -/
theorem setPixel_filled {s : State} {h : Nat} (hl : s.liveSurface h = true) (x y : Nat) (c : Byte) :
    Filled h (y * s.width h + x) 1 c s (s.setPixel h x y c) where
  toPainted := setPixel_painted s h x y c
  byte a := by
    obtain ⟨S, hS⟩ := State.liveSurface_iff.mp hl
    rw [State.surfaceByte_setPixel hS, State.width_eq hS]
    exact if_congr (by omega) rfl rfl

/-! ### SCLEAR (R69) -/

/-- What holds of round 0 before a loop, and of round i + 1 after round i, holds of round n after it. -/
theorem forUpto_induct {σ : Type} {P : Nat → σ → Prop} {n : Nat} {f : Nat → σ → σ} {s : σ} (h0 : P 0 s)
    (hstep : ∀ i t, P i t → P (i + 1) (f i t)) : P n (forUpto n f s) := by
  induction n with
  | zero => exact h0
  | succ n ih => exact hstep n _ ih

/-- Writing the first `n` pixels of row `y` fills their `n` bytes. -/
theorem row_filled {s : State} {h : Nat} (hl : s.liveSurface h = true) (y n : Nat) (c : Byte) :
    Filled h (y * s.width h) n c s (forUpto n (fun x s => s.setPixel h x y c) s) := by
  refine forUpto_induct (P := fun n t => Filled h (y * s.width h) n c s t) (Filled.refl h _ c s) fun x t ht => ?_
  have hpixel := setPixel_filled ((ht.liveSurface h).trans hl) x y c
  rw [ht.width] at hpixel
  exact ht.trans hpixel

/-- The rows of a surface follow one another, so SCLEAR fills its first w * h bytes. -/
theorem fillSurface_filled {s : State} {h : Nat} (hl : s.liveSurface h = true) (c : Byte) :
    Filled h 0 (s.width h * s.height h) c s (s.fillSurface h c) := by
  refine forUpto_induct (P := fun n t => Filled h 0 (s.width h * n) c s t) (Filled.refl h 0 c s) fun y t ht => ?_
  refine ht.trans ?_
  rw [Nat.zero_add, Nat.mul_comm, ← ht.width]
  exact row_filled ((ht.liveSurface h).trans hl) y (t.width h) c

/-- Settles O33: the bytes SCLEAR fills are those of the pixels, and the dimensions stay. -/
theorem sclearFillsASurface : Obligations.SclearFillsASurface := by
  refine ⟨rfl, fun s => ⟨fun hdead => exec_fail (firstFault_surf_dead hdead _), fun hlive hbig => ?_,
    fun hlive hc => ?_⟩⟩
  · exact exec_fail ((firstFault_sclear hlive).trans (if_neg (Nat.not_le_of_lt hbig)))
  · have hfill := fillSurface_filled hlive (BitVec.ofNat 8 (s.argN 1))
    refine ⟨_, exec_pass ((firstFault_sclear hlive).trans (if_pos hc)), hfill.pixelsOnly, fun x y hx hy => ?_,
      fun a ha => (hfill.byte a).trans (if_neg (by omega))⟩
    obtain ⟨S, hS⟩ := State.liveSurface_iff.mp hlive
    have hin : y * s.width (s.argN 0) + x < s.width (s.argN 0) * s.height (s.argN 0) := by
      rw [State.width_eq hS] at hx ⊢
      rw [State.height_eq hS] at hy ⊢
      exact pixelAddr_lt hx hy
    show ((s.fillSurface _ _).pixel _ x y).toNat = _
    rw [State.pixel_eq_surfaceByte, hfill.width, hfill.byte, if_pos (by omega), toNat_field (Nat.lt_succ_of_le hc)]

/-! ### SGETPIX (R70) -/

/-- Settles O34: the effect is to complete with the pixel, zero-extended. -/
theorem sgetpixReadsAPixel : Obligations.SgetpixReadsAPixel := by
  refine ⟨rfl, fun s => ⟨fun hdead => exec_fail (firstFault_surf_dead hdead _), fun hlive hbig => ?_,
    fun hlive hx hy => ?_⟩⟩
  · exact exec_fail ((firstFault_sgetpix hlive).trans (if_neg (by omega)))
  · exact ⟨_, exec_pass ((firstFault_sgetpix hlive).trans (if_pos ⟨hx, hy⟩)),
      BitVec.toNat_setWidth_of_le (by decide)⟩

/-! ### SPUTPIX (R71) -/

/-- Settles O35: the one byte written is that of the wrapped pixel, whatever the colour. -/
theorem sputpixWritesAPixel : Obligations.SputpixWritesAPixel := by
  refine ⟨rfl, fun s => ⟨fun hdead => exec_fail (firstFault_surf_dead hdead _), fun hlive hbig => ?_,
    fun hlive hx hy hc => ?_⟩⟩
  · exact exec_fail ((firstFault_sputpix hlive).trans (if_neg (by omega)))
  · refine ⟨_, exec_pass ((firstFault_sputpix hlive).trans (if_pos ⟨hx, hy, hc⟩)),
      (setPixel_painted s _ _ _ _).pixelsOnly, fun a => ?_⟩
    obtain ⟨S, hS⟩ := State.liveSurface_iff.mp hlive
    show ((s.setPixel _ _ _ _).surfaceByte _ a).toNat = _
    rw [State.surfaceByte_setPixel hS, ← State.width_eq hS, apply_ite BitVec.toNat, toNat_field (Nat.lt_succ_of_le hc)]

/-! ### SINFO (R72) -/

/-- Two halves put together with a shift are their concatenation. -/
theorem packed_halves (lo hi : BitVec 16) :
    BitVec.ofNat 32 lo.toNat ||| BitVec.ofNat 32 hi.toNat <<< 16 = hi ++ lo := by
  rw [BitVec.ofNat_toNat, BitVec.ofNat_toNat, BitVec.or_comm, ← BitVec.setWidth_append_eq_shiftLeft_setWidth_or]
  exact BitVec.setWidth_eq _

/-- Settles O36: RESULT is the height above the width, so its halves are the two. -/
theorem sinfoReadsDimensions : Obligations.SinfoReadsDimensions := by
  refine ⟨rfl, fun s => ⟨fun hdead => exec_fail (firstFault_surf_dead hdead _), fun S hS => ?_⟩⟩
  have hlive : s.liveSurface (s.argN 0) = true := State.liveSurface_iff.mpr ⟨S, hS⟩
  have hpass : firstFault (checksOf s .sinfo) = none := firstFault_surf_live hlive _
  refine ⟨_, exec_pass hpass, ?_⟩
  rw [State.width_eq hS, State.height_eq hS, packed_halves]
  exact ⟨BitVec.extractLsb'_append_eq_right, BitVec.extractLsb'_append_eq_left⟩

end Sys2Proof.Machine

/-! The blit commands (42_blit.md R73 to R76): the faults of each from its list of checks, and each copy as a fold of visits over
its offsets, of which one lemma says what a visit writes and one what it leaves. -/

namespace Sys2Proof.Machine

/-! ### Checks -/

/-- The two surface operands, checked first, raise BAD_HANDLE when one is not live. -/
theorem firstFault_blit_dead {s : State}
    (hdead : s.liveSurface (s.argN 0) = false ∨ s.liveSurface (s.argN 1) = false) (l : List Check) :
    firstFault (surfCheck s 0 :: surfCheck s 1 :: l) = some .badHandle := by
  cases hsrc : s.liveSurface (s.argN 0) with
  | false => exact firstFault_surf_dead hsrc _
  | true =>
    rw [firstFault_surf_live hsrc]
    exact firstFault_surf_dead (hdead.resolve_left (by simp [hsrc])) _

/-- Live surface operands leave the first fault to the checks after them. -/
theorem firstFault_blit_live {s : State} (hsrc : s.liveSurface (s.argN 0) = true)
    (hdst : s.liveSurface (s.argN 1) = true) (l : List Check) :
    firstFault (surfCheck s 0 :: surfCheck s 1 :: l) = firstFault l := by
  rw [firstFault_surf_live hsrc, firstFault_surf_live hdst]

/-- A list of operands of class `c16` raises BAD_ARG exactly when one of them is out of range. -/
theorem firstFault_c16 (s : State) (ks : List (Fin 10)) :
    firstFault (ks.map (c16Check s)) = if ∀ k ∈ ks, s.argN k < 2 ^ 16 then none else some .badArg := by
  rw [firstFault_of_code (c := .badArg) (by simp [c16Check])]
  simp [c16Check]

/-- The operands of BLIT_MASKED that are of class `c16` (R56). -/
theorem mem_rangedSlots {k : Fin 10} : k ∈ ([2, 3, 4, 5, 6, 7] : List (Fin 10)) ↔ 2 ≤ k.val ∧ k.val ≤ 7 := by
  revert k
  decide

theorem firstFault_blitMasked {s : State} (hsrc : s.liveSurface (s.argN 0) = true)
    (hdst : s.liveSurface (s.argN 1) = true) : firstFault (checksOf s .blitMasked) =
      if ∀ k : Fin 10, 2 ≤ k.val → k.val ≤ 7 → s.argN k < 2 ^ 16 then none else some .badArg := by
  refine (firstFault_blit_live hsrc hdst _).trans ((firstFault_c16 s [2, 3, 4, 5, 6, 7]).trans ?_)
  simp only [mem_rangedSlots, and_imp]

theorem firstFault_blitStretch {s : State} (hsrc : s.liveSurface (s.argN 0) = true)
    (hdst : s.liveSurface (s.argN 1) = true) : firstFault (checksOf s .blitStretch) =
      if ∀ k : Fin 10, 2 ≤ k.val → s.argN k < 2 ^ 16 then
        if s.argN 8 ≠ 0 ∧ s.argN 9 ≠ 0 then none else some .zeroDim
      else some .badArg := by
  have hslots : ∀ k : Fin 10, k ∈ [2, 3, 4, 5, 6, 7, 8, 9] ↔ 2 ≤ k.val := by decide
  refine (firstFault_blit_live hsrc hdst _).trans
    ((firstFault_append ([2, 3, 4, 5, 6, 7, 8, 9].map (c16Check s)) [_]).trans ?_)
  rw [firstFault_c16]
  simp only [hslots]
  by_cases hrange : ∀ k : Fin 10, 2 ≤ k.val → s.argN k < 2 ^ 16
  · simp only [if_pos hrange, firstFault_cons, firstFault_nil, decide_eq_true_eq]
  · simp only [if_neg hrange]

/-! ### The visits of a blit (R73) -/

/-- The parameters of a blit: its surfaces, the source column and row of an offset, the destination offset, the rectangle. -/
structure Blit where
  src : Nat
  dst : Nat
  sx : Nat → Nat
  sy : Nat → Nat
  dstX : Nat
  dstY : Nat
  w : Nat
  h : Nat

/-- The model's blit with these parameters. -/
def Blit.run (b : Blit) (s : State) : State := s.blit b.src b.dst b.sx b.sy b.dstX b.dstY b.w b.h

/-- The source value of an offset in the state `u`. -/
def Blit.value (b : Blit) (u : State) (p : Nat × Nat) : Byte := u.pixel b.src (b.sx p.1) (b.sy p.2)

/-- The destination column of an offset, the destination being as wide as in `s`. -/
def Blit.column (b : Blit) (s : State) (p : Nat × Nat) : Nat := (b.dstX + p.1) % s.width b.dst

/-- The destination row of an offset, the destination being as high as in `s`. -/
def Blit.row (b : Blit) (s : State) (p : Nat × Nat) : Nat := (b.dstY + p.2) % s.height b.dst

/-- Where the destination pixel of an offset lies in the destination's buffer (R42). -/
def Blit.addr (b : Blit) (s : State) (p : Nat × Nat) : Nat := b.row s p * s.width b.dst + b.column s p

/-- The visit of an offset in the state `u` by a blit that began in `s`. -/
def Blit.visit (b : Blit) (s u : State) (p : Nat × Nat) : State :=
  if b.value u p ≠ 0 then u.setPixel b.dst (b.column s p) (b.row s p) (b.value u p) else u

theorem mem_rowMajor {w h : Nat} {p : Nat × Nat} : p ∈ rowMajor w h ↔ p.1 < w ∧ p.2 < h := by
  obtain ⟨x, y⟩ := p
  simp only [rowMajor, List.mem_flatMap, List.mem_map, List.mem_range, Prod.mk.injEq]
  constructor
  · rintro ⟨_, hy, _, hx, rfl, rfl⟩
    exact ⟨hx, hy⟩
  · exact fun ⟨hx, hy⟩ => ⟨y, hy, x, hx, rfl, rfl⟩

section

variable (b : Blit) {s u : State}

theorem Blit.visit_eq_copyPixel (s u : State) (p : Nat × Nat) : b.visit s u p =
    u.copyPixel b.src (b.sx p.1) (b.sy p.2) b.dst (b.column s p) (b.row s p) := ite_not _ _ _

theorem Blit.visit_painted (s u : State) (p : Nat × Nat) : Painted b.dst u (b.visit s u p) := by
  rw [b.visit_eq_copyPixel]
  exact copyPixel_painted _ _ _ _ _ _ _

theorem Blit.visits_painted (s u : State) (l : List (Nat × Nat)) : Painted b.dst u (l.foldl (b.visit s) u) :=
  List.foldlRecOn l _ (Painted.refl _ _) fun v hv p _ => hv.trans (b.visit_painted s v p)

theorem Blit.run_painted (s : State) : Painted b.dst s (b.run s) := blit_painted _ _ _ _ _ _ _ _ _

/-- A blit is the fold of its visits over the offsets in row-major order: no visit changes a dimension, so those of the first
state serve throughout. -/
theorem Blit.run_eq_foldl (s : State) : b.run s = (rowMajor b.w b.h).foldl (b.visit s) s := by
  have hmodel : b.run s = (rowMajor b.w b.h).foldl (fun t p => b.visit t t p) s := by
    simp only [b.visit_eq_copyPixel]
    exact forUpto_rowMajor b.w b.h _ s
  rw [hmodel]
  refine (List.foldl_rel (r := fun t u => t = u ∧ Painted b.dst s u) ⟨rfl, Painted.refl _ _⟩ ?_).1
  rintro p - t _ ⟨rfl, ht⟩
  refine ⟨?_, ht.trans (b.visit_painted s t p)⟩
  rw [Blit.visit, Blit.column, Blit.row, ht.width, ht.height]
  rfl

/-- What a visit writes: the offset's source value, unless it is 0, at the offset's address, and nothing else. -/
theorem Blit.visit_byte (hlive : s.liveSurface b.dst = true) (hu : Painted b.dst s u) (p : Nat × Nat) (a : Nat) :
    (b.visit s u p).surfaceByte b.dst a =
      if b.value u p ≠ 0 ∧ a = b.addr s p then b.value u p else u.surfaceByte b.dst a := by
  obtain ⟨S, hS⟩ := State.liveSurface_iff.mp ((hu.liveSurface b.dst).trans hlive)
  rw [Blit.visit, apply_ite (State.surfaceByte · b.dst a), State.surfaceByte_setPixel hS, ← State.width_eq hS, hu.width,
    ite_and]
  rfl

/-- Visits that do not have the address leave its byte. -/
theorem Blit.visits_byte_of_ne (hlive : s.liveSurface b.dst = true) (hu : Painted b.dst s u) {a : Nat}
    {l : List (Nat × Nat)} (ha : ∀ p ∈ l, a ≠ b.addr s p) :
    (l.foldl (b.visit s) u).surfaceByte b.dst a = u.surfaceByte b.dst a := by
  refine (List.foldlRecOn (motive := fun t => Painted b.dst s t ∧ t.surfaceByte b.dst a = u.surfaceByte b.dst a) l _
    ⟨hu, rfl⟩ ?_).2
  rintro t ⟨ht, hbyte⟩ p hp
  refine ⟨ht.trans (b.visit_painted s t p), ?_⟩
  rw [b.visit_byte hlive ht, if_neg fun h => ha p hp h.2, hbyte]

/-- A blit leaves the bytes of the destination that are no visited offset's. -/
theorem Blit.run_byte_of_ne (hlive : s.liveSurface b.dst = true) {a : Nat}
    (ha : ∀ x y, x < b.w → y < b.h → a ≠ b.addr s (x, y)) :
    (b.run s).surfaceByte b.dst a = s.surfaceByte b.dst a := by
  rw [b.run_eq_foldl]
  refine b.visits_byte_of_ne hlive (Painted.refl _ _) fun p hp => ?_
  obtain ⟨hx, hy⟩ := mem_rowMajor.mp hp
  exact ha p.1 p.2 hx hy

end

/-! ### BLIT_MASKED and BLIT_STRETCH (R74, R75) -/

/-- What BLIT_MASKED's operands ask for. -/
def maskedBlit (s : State) : Blit where
  src := s.argN 0
  dst := s.argN 1
  sx := maskedCoord (s.argN 2) (s.width (s.argN 0))
  sy := maskedCoord (s.argN 3) (s.height (s.argN 0))
  dstX := s.argN 4
  dstY := s.argN 5
  w := s.argN 6
  h := s.argN 7

/-- What BLIT_STRETCH's operands ask for. -/
def stretchBlit (s : State) : Blit where
  src := s.argN 0
  dst := s.argN 1
  sx := stretchCoord (s.argN 2) (s.argN 4) (s.argN 8) (s.width (s.argN 0))
  sy := stretchCoord (s.argN 3) (s.argN 5) (s.argN 9) (s.height (s.argN 0))
  dstX := s.argN 6
  dstY := s.argN 7
  w := s.argN 8
  h := s.argN 9

theorem MaskedLegal.exec {s : State} (h : MaskedLegal s) :
    exec .blitMasked s = .next (((maskedBlit s).run s).complete .ok 0) := by
  obtain ⟨hsrc, hdst, hrange⟩ := h
  exact exec_pass ((firstFault_blitMasked hsrc hdst).trans (if_pos hrange))

theorem StretchLegal.exec {s : State} (h : StretchLegal s) :
    exec .blitStretch s = .next (((stretchBlit s).run s).complete .ok 0) := by
  obtain ⟨hsrc, hdst, hrange, hdim⟩ := h
  exact exec_pass ((firstFault_blitStretch hsrc hdst).trans ((if_pos hrange).trans (if_pos hdim)))

/-- Settles O37: the faults are the first of the checks, the copy is the fold of its visits, and a visit writes the byte at its
own address only. -/
theorem blitMaskedVisitsEveryOffset : Obligations.BlitMaskedVisitsEveryOffset := by
  refine ⟨rfl, fun s => ⟨fun hdead => exec_fail (firstFault_blit_dead hdead _), fun hsrc hdst hbig => ?_,
    fun hlegal => ?_⟩⟩
  · refine exec_fail ((firstFault_blitMasked hsrc hdst).trans (if_neg fun hrange => ?_))
    obtain ⟨k, h2, h7, hk⟩ := hbig
    exact Nat.not_lt_of_le hk (hrange k h2 h7)
  · exact ⟨_, hlegal.exec, congrArg (State.complete · .ok 0) ((maskedBlit s).run_eq_foldl s),
      ((maskedBlit s).run_painted s).pixelsOnly, fun a ha => (maskedBlit s).run_byte_of_ne hlegal.2.1 ha⟩

/-- Settles O38: as for BLIT_MASKED, with the check of the two target dimensions after the ranges. -/
theorem blitStretchVisitsEveryOffset : Obligations.BlitStretchVisitsEveryOffset := by
  refine ⟨rfl, fun s => ⟨fun hdead => exec_fail (firstFault_blit_dead hdead _), fun hsrc hdst hbig => ?_,
    fun hsrc hdst hrange hzero => ?_, fun hlegal => ?_⟩⟩
  · refine exec_fail ((firstFault_blitStretch hsrc hdst).trans (if_neg fun hrange => ?_))
    obtain ⟨k, h2, hk⟩ := hbig
    exact Nat.not_lt_of_le hk (hrange k h2)
  · refine exec_fail ((firstFault_blitStretch hsrc hdst).trans ((if_pos hrange).trans (if_neg fun hdim => ?_)))
    exact hzero.elim hdim.1 hdim.2
  · exact ⟨_, hlegal.exec, congrArg (State.complete · .ok 0) ((stretchBlit s).run_eq_foldl s),
      ((stretchBlit s).run_painted s).pixelsOnly, fun a ha => (stretchBlit s).run_byte_of_ne hlegal.2.1 ha⟩

/-! ### Blits onto another surface (R122) -/

theorem rowMajor_nodup (w h : Nat) : (rowMajor w h).Nodup := by
  refine List.nodup_flatMap.mpr ⟨fun y _ => List.nodup_range.map fun x x' hx => (Prod.mk.inj hx).1,
    List.nodup_range.imp fun {y y'} hne => ?_⟩
  rw [Function.onFun, List.disjoint_left]
  simp only [List.mem_map, not_exists, not_and]
  rintro _ ⟨x, -, rfl⟩ x' - heq
  exact hne (Prod.mk.inj heq).2.symm

/-- Two offsets below `n` do not wrap to one coordinate. -/
theorem wrapped_injective {d n x y : Nat} (hx : x < n) (hy : y < n) (h : (d + x) % n = (d + y) % n) : x = y :=
  (Nat.ModEq.add_left_cancel' d h).eq_of_lt_of_lt hx hy

/-- The address of a pixel gives its row and its column. -/
theorem rowAddr_injective {n x x' y y' : Nat} (hx : x < n) (hx' : x' < n) (h : y * n + x = y' * n + x') :
    x = x' ∧ y = y' := by
  have hcol : x = x' := by
    have := congrArg (· % n) h
    simpa only [Nat.mul_add_mod', Nat.mod_eq_of_lt hx, Nat.mod_eq_of_lt hx'] using this
  subst hcol
  exact ⟨rfl, Nat.eq_of_mul_eq_mul_right (Nat.zero_lt_of_lt hx) (Nat.add_right_cancel h)⟩

section

variable {b : Blit} {s u : State}

/-- Within a rectangle no larger than the destination, no two offsets share a destination pixel. -/
theorem Blit.addr_injective (hw : b.w ≤ s.width b.dst) (hh : b.h ≤ s.height b.dst) {p q : Nat × Nat}
    (hp : p ∈ rowMajor b.w b.h) (hq : q ∈ rowMajor b.w b.h) (h : b.addr s p = b.addr s q) : p = q := by
  obtain ⟨hpx, hpy⟩ := mem_rowMajor.mp hp
  obtain ⟨hqx, hqy⟩ := mem_rowMajor.mp hq
  have hpos : 0 < s.width b.dst := by omega
  obtain ⟨hcol, hrow⟩ := rowAddr_injective (Nat.mod_lt _ hpos) (Nat.mod_lt _ hpos) h
  exact Prod.ext (wrapped_injective (hpx.trans_le hw) (hqx.trans_le hw) hcol)
    (wrapped_injective (hpy.trans_le hh) (hqy.trans_le hh) hrow)

theorem Blit.pixel_eq_byte (hu : Painted b.dst s u) (p : Nat × Nat) :
    u.pixel b.dst (b.column s p) (b.row s p) = u.surfaceByte b.dst (b.addr s p) := by
  rw [State.pixel_eq_surfaceByte, hu.width, Blit.addr]

/-- Painting another surface leaves the source values. -/
theorem Blit.value_of_painted (hne : b.src ≠ b.dst) (hu : Painted b.dst s u) (p : Nat × Nat) :
    b.value u p = b.value s p := hu.pixel_other hne _ _

/-- Onto another surface, each destination pixel of a rectangle no larger than it is written by its own visit only: no visit
before or after has its address, and none changes the source. -/
theorem Blit.run_pixel_of_ne (hne : b.src ≠ b.dst) (hlive : s.liveSurface b.dst = true) (hw : b.w ≤ s.width b.dst)
    (hh : b.h ≤ s.height b.dst) {p : Nat × Nat} (hp : p ∈ rowMajor b.w b.h) :
    (b.run s).pixel b.dst (b.column s p) (b.row s p) =
      if b.value s p = 0 then s.pixel b.dst (b.column s p) (b.row s p) else b.value s p := by
  obtain ⟨before, after, hsplit⟩ := List.append_of_mem hp
  have hnodup := rowMajor_nodup b.w b.h
  rw [hsplit, List.nodup_middle, List.nodup_cons] at hnodup
  have hother : ∀ q ∈ before ++ after, b.addr s p ≠ b.addr s q := fun q hq heq => by
    have hmem : q ∈ rowMajor b.w b.h := by
      rw [hsplit]
      exact List.perm_middle.mem_iff.mpr (List.mem_cons_of_mem p hq)
    exact hnodup.1 (Blit.addr_injective hw hh hp hmem heq ▸ hq)
  have hbefore := b.visits_painted s s before
  have hvisit := hbefore.trans (b.visit_painted s _ p)
  rw [Blit.pixel_eq_byte (b.run_painted s), Blit.pixel_eq_byte (Painted.refl _ _), b.run_eq_foldl, hsplit,
    List.foldl_append, List.foldl_cons,
    b.visits_byte_of_ne hlive hvisit fun q hq => hother q (List.mem_append_right _ hq),
    b.visit_byte hlive hbefore, Blit.value_of_painted hne hbefore,
    b.visits_byte_of_ne hlive (Painted.refl _ _) fun q hq => hother q (List.mem_append_left _ hq)]
  simp only [and_true, ite_not]

end

/-- Settles O39: both blits, at any offsets, from the fact about a blit with any source columns and rows. -/
theorem blitOntoAnotherSurface : Obligations.BlitOntoAnotherSurface := by
  refine fun s hne _ _ => ⟨fun hlegal hw hh => ⟨_, hlegal.exec, fun x y hx hy => ?_⟩,
    fun hlegal hw hh => ⟨_, hlegal.exec, fun x y hx hy => ?_⟩⟩
  · exact Blit.run_pixel_of_ne (b := maskedBlit s) (p := (x, y)) hne hlegal.2.1 hw hh (mem_rowMajor.mpr ⟨hx, hy⟩)
  · exact Blit.run_pixel_of_ne (b := stretchBlit s) (p := (x, y)) hne hlegal.2.1 hw hh (mem_rowMajor.mpr ⟨hx, hy⟩)

/-! ### Opaque and transparent sources (R76 a) -/

/-- The byte is the value of some pixel of the surface. -/
def State.HasPixel (s : State) (h : Nat) (v : Byte) : Prop :=
  ∃ x y, x < s.width h ∧ y < s.height h ∧ v = s.pixel h x y

/-- A blit that began in `s` and has come to `u`: it has painted the destination, and the source, which may be the destination,
holds values of source pixels still. -/
structure Blit.Kept (b : Blit) (s u : State) : Prop where
  painted : Painted b.dst s u
  source : ∀ x y, x < s.width b.src → y < s.height b.src → s.HasPixel b.src (u.pixel b.src x y)

/-- Every source column and row the blit computes lies in the source. -/
def Blit.InSource (b : Blit) (s : State) : Prop := (∀ x, b.sx x < s.width b.src) ∧ ∀ y, b.sy y < s.height b.src

section

variable {b : Blit} {s u : State}

/-- A visit leaves a pixel as it was or gives it the offset's source value. -/
theorem Blit.visit_pixel_or (hlive : s.liveSurface b.dst = true) (hu : Painted b.dst s u) (p : Nat × Nat) (g x y : Nat) :
    (b.visit s u p).pixel g x y = u.pixel g x y ∨ (b.visit s u p).pixel g x y = b.value u p := by
  by_cases hg : g = b.dst
  · subst hg
    rw [State.pixel_eq_surfaceByte, State.pixel_eq_surfaceByte, (b.visit_painted s u p).width, b.visit_byte hlive hu]
    exact (ite_eq_or_eq _ _ _).symm
  · exact .inl ((b.visit_painted s u p).pixel_other hg x y)

theorem Blit.Kept.refl (b : Blit) (s : State) : b.Kept s s := ⟨Painted.refl _ _, fun x y hx hy => ⟨x, y, hx, hy, rfl⟩⟩

theorem Blit.Kept.value (hu : b.Kept s u) (hin : b.InSource s) (p : Nat × Nat) : s.HasPixel b.src (b.value u p) :=
  hu.source _ _ (hin.1 _) (hin.2 _)

/-- A pixel that holds a source value holds one after a visit. -/
theorem Blit.Kept.visit_hasPixel (hu : b.Kept s u) (hin : b.InSource s) (hlive : s.liveSurface b.dst = true) (p : Nat × Nat)
    {g x y : Nat} (h : s.HasPixel b.src (u.pixel g x y)) : s.HasPixel b.src ((b.visit s u p).pixel g x y) := by
  rcases Blit.visit_pixel_or hlive hu.painted p g x y with heq | heq <;> rw [heq]
  · exact h
  · exact hu.value hin p

theorem Blit.Kept.visit (hu : b.Kept s u) (hin : b.InSource s) (hlive : s.liveSurface b.dst = true) (p : Nat × Nat) :
    b.Kept s (b.visit s u p) :=
  ⟨hu.painted.trans (b.visit_painted s u p), fun x y hx hy => hu.visit_hasPixel hin hlive p (hu.source x y hx hy)⟩

/-- With an opaque source, the visit of an offset gives its destination pixel a source value, and the visits after it leave the
pixel with one. -/
theorem Blit.run_pixel_opaque (hin : b.InSource s) (hlive : s.liveSurface b.dst = true)
    (hopaque : ∀ v, s.HasPixel b.src v → v ≠ 0) {p : Nat × Nat} (hp : p ∈ rowMajor b.w b.h) :
    s.HasPixel b.src ((b.run s).pixel b.dst (b.column s p) (b.row s p)) := by
  obtain ⟨before, after, hsplit⟩ := List.append_of_mem hp
  rw [b.run_eq_foldl, hsplit, List.foldl_append, List.foldl_cons]
  have hbefore : b.Kept s (before.foldl (b.visit s) s) :=
    List.foldlRecOn before _ (Blit.Kept.refl b s) fun u hu q _ => hu.visit hin hlive q
  generalize before.foldl (b.visit s) s = u at hbefore
  have hvalue := hbefore.value hin p
  have hwritten : (b.visit s u p).pixel b.dst (b.column s p) (b.row s p) = b.value u p := by
    rw [Blit.pixel_eq_byte (hbefore.visit hin hlive p).painted, b.visit_byte hlive hbefore.painted,
      if_pos ⟨hopaque _ hvalue, rfl⟩]
  refine (List.foldlRecOn (motive := fun t => b.Kept s t ∧ s.HasPixel b.src (t.pixel b.dst (b.column s p) (b.row s p)))
    after _ ⟨hbefore.visit hin hlive p, hwritten ▸ hvalue⟩ ?_).2
  rintro t ⟨ht, hpix⟩ q -
  exact ⟨ht.visit hin hlive q, ht.visit_hasPixel hin hlive q hpix⟩

/-- With a transparent source every visit changes nothing. -/
theorem Blit.run_transparent (hzero : ∀ p, b.value s p = 0) : b.run s = s := by
  rw [b.run_eq_foldl]
  exact List.foldl_fixed' (fun p => if_neg (not_not.mpr (hzero p))) _

end

/-- A live surface of a well-formed table has a column and a row (R29). -/
theorem State.surfacesOk.dims_pos {s : State} (hs : s.surfacesOk) {h : Nat} (hlive : s.liveSurface h = true) :
    0 < s.width h ∧ 0 < s.height h := by
  obtain ⟨S, hS⟩ := State.liveSurface_iff.mp hlive
  obtain ⟨-, -, hw, hh, -⟩ := hs.entry hS
  rw [State.width_eq hS, State.height_eq hS]
  exact ⟨hw, hh⟩

theorem maskedBlit_inSource {s : State} (hs : s.surfacesOk) (hlive : s.liveSurface (s.argN 0) = true) :
    (maskedBlit s).InSource s :=
  ⟨fun _ => Nat.mod_lt _ (hs.dims_pos hlive).1, fun _ => Nat.mod_lt _ (hs.dims_pos hlive).2⟩

/-! ### BLIT_MASKED with other operands (R76 b, c) -/

theorem withArgs_surfaceBlind (args : Vector Word 10) : SurfaceBlind fun s => { s with args := args } :=
  ⟨fun _ => rfl, fun _ _ => rfl⟩

/-- BLIT_MASKED with other operands that ask for the blit `b` runs `b`. -/
theorem exec_blitMasked_withArgs {s : State} {args : Vector Word 10} {b : Blit}
    (hlegal : MaskedLegal { s with args := args }) (hb : maskedBlit { s with args := args } = b) :
    exec .blitMasked { s with args := args } = .next { (b.run s).complete .ok 0 with args := args } := by
  have hrun : b.run { s with args := args } = { b.run s with args := args } :=
    ((withArgs_surfaceBlind args).blit s _ _ _ _ _ _ _ _).symm
  rw [hlegal.exec, hb, hrun]
  rfl

/-- R76 (b): a source offset of the whole size is an offset of 0. -/
theorem maskedCoord_size (n : Nat) : maskedCoord n n = maskedCoord 0 n := by
  funext x
  rw [maskedCoord, maskedCoord, Nat.add_mod_left, Nat.zero_add]

/-- R76 (c): at ratio one the scaled coordinate is the offset one. -/
theorem stretchCoord_ratio_one {n : Nat} (hn : n ≠ 0) (off size : Nat) :
    stretchCoord off n n size = maskedCoord off size := by
  funext x
  rw [stretchCoord, maskedCoord, Nat.mul_div_cancel _ (Nat.pos_of_ne_zero hn), Nat.add_comm]

/-- Settles O40: a blit keeps its source's values, a transparent one has no effect, and the two source offsets give one blit. -/
theorem maskedBlitLaws : Obligations.MaskedBlitLaws := by
  intro s hlegal
  have hexec := hlegal.exec
  obtain ⟨hsrc, hdst, hrange⟩ := hlegal
  refine ⟨fun hs hopaque => ⟨_, hexec, fun x y hx hy => ?_⟩, fun hs hzero => ?_, fun hwidth => ⟨_, hexec, ?_⟩⟩
  · have hnonzero : ∀ v, s.HasPixel (s.argN 0) v → v ≠ 0 := by
      rintro _ ⟨x, y, hx, hy, rfl⟩
      exact hopaque x y hx hy
    exact Blit.run_pixel_opaque (p := (x, y)) (maskedBlit_inSource hs hsrc) hdst hnonzero (mem_rowMajor.mpr ⟨hx, hy⟩)
  · obtain ⟨hcol, hrow⟩ := maskedBlit_inSource hs hsrc
    rw [hexec, Blit.run_transparent (b := maskedBlit s) fun p => hzero _ _ (hcol p.1) (hrow p.2)]
    rfl
  · have harg : ∀ j : Fin 10, j ≠ 2 → (s.setArg 2 0).argN j = s.argN j :=
      fun j hj => congrArg BitVec.toNat (getElem_set_ne s.args hj 0)
    have harg2 : (s.setArg 2 0).argN 2 = 0 := congrArg BitVec.toNat (Vector.getElem_set_self _)
    have hlegal : MaskedLegal (s.setArg 2 0) := by
      refine ⟨?_, ?_, fun k h2 h7 => ?_⟩
      · rw [harg 0 (by decide)]; exact hsrc
      · rw [harg 1 (by decide)]; exact hdst
      · by_cases hk : k = 2
        · rw [hk, harg2]; decide
        · rw [harg k hk]; exact hrange k h2 h7
    have hblit : maskedBlit (s.setArg 2 0) = maskedBlit s := by
      simp (disch := decide) only [maskedBlit, harg, harg2, hwidth, maskedCoord_size]
      rfl
    exact exec_blitMasked_withArgs hlegal hblit

/-- Settles O41: the legal operands of the one are those of the other, and the two ask for one blit. -/
theorem stretchAtRatioOneIsMasked : Obligations.StretchAtRatioOneIsMasked := by
  intro s args hlegal hw hh h0 h1 h2 h3 h4 h5 h6 h7
  refine ⟨_, hlegal.exec, ?_⟩
  obtain ⟨hsrc, hdst, hrange, hdimw, hdimh⟩ := hlegal
  have harg : ∀ {k j : Fin 10}, args[k] = s.arg j → { s with args := args }.argN k = s.argN j :=
    fun h => congrArg BitVec.toNat h
  refine exec_blitMasked_withArgs ⟨?_, ?_, fun k hk2 hk7 => ?_⟩ ?_
  · rw [harg (k := 0) h0]; exact hsrc
  · rw [harg (k := 1) h1]; exact hdst
  · have hops : ∀ k ∈ ([2, 3, 4, 5, 6, 7] : List (Fin 10)), ∃ j : Fin 10, 2 ≤ j.val ∧ args[k] = s.arg j := by
      simp only [List.forall_mem_cons]
      exact ⟨⟨2, by decide, h2⟩, ⟨3, by decide, h3⟩, ⟨6, by decide, h4⟩, ⟨7, by decide, h5⟩, ⟨8, by decide, h6⟩,
        ⟨9, by decide, h7⟩, nofun⟩
    obtain ⟨j, hj, hkj⟩ := hops k (mem_rangedSlots.mpr ⟨hk2, hk7⟩)
    rw [harg hkj]
    exact hrange j hj
  · rw [maskedBlit, stretchBlit, hw, hh, stretchCoord_ratio_one hdimw, stretchCoord_ratio_one hdimh, harg (k := 0) h0,
      harg (k := 1) h1, harg (k := 2) h2, harg (k := 3) h3, harg (k := 4) h4, harg (k := 5) h5, harg (k := 6) h6,
      harg (k := 7) h7]
    rfl

end Sys2Proof.Machine

/-! The sample commands (43_sample.md R77 to R81): the faults of each from its list of checks, and each effect as what it writes
of one sample and what it leaves. -/

namespace Sys2Proof.Machine

/-! ### What the accessors read of a live sample -/

theorem State.sampleSize_eq {s : State} {m : Nat} {M : Sample} (hM : s.sample? m = some M) : s.sampleSize m = M.size := by
  rw [State.sampleSize, hM]

theorem State.sampleByte_eq {s : State} {m : Nat} {M : Sample} (hM : s.sample? m = some M) (i : Nat) :
    s.sampleByte m i = Memory.read M.data i := by
  rw [State.sampleByte, hM]

theorem State.sampleField_eq {s : State} {m : Nat} {M : Sample} (hM : s.sample? m = some M) (f : Nat) :
    s.sampleField m f = M.metadata f := by
  rw [State.sampleField, hM]

/-! ### Checks -/

theorem firstFault_smp_dead {s : State} {k : Fin 10} (hdead : s.liveSample (s.argN k) = false) (l : List Check) :
    firstFault (smpCheck s k :: l) = some .badHandle := by
  rw [firstFault_cons, smpCheck, hdead, if_neg Bool.false_ne_true]

theorem firstFault_smp_live {s : State} {k : Fin 10} (hlive : s.liveSample (s.argN k) = true) (l : List Check) :
    firstFault (smpCheck s k :: l) = firstFault l := by
  rw [firstFault_cons, smpCheck, if_pos hlive]

theorem firstFault_smpcreate (s : State) : firstFault (checksOf s .smpcreate) =
    if (s.argN 0 = 8 ∨ s.argN 0 = 16) ∧ (s.argN 1 = 1 ∨ s.argN 1 = 2) then none else some .badArg := by
  rw [checksOf, firstFault_of_code (c := .badArg) (by simp [bitsCheck, channelsCheck])]
  simp [bitsCheck, channelsCheck]

theorem firstFault_smpwrite {s : State} (hlive : s.liveSample (s.argN 0) = true) :
    firstFault (checksOf s .smpwrite) =
      if s.argN 2 ≤ 255 ∧ s.argN 1 < s.sampleSize (s.argN 0) then none else some .badArg := by
  rw [checksOf, firstFault_smp_live hlive, firstFault_of_code (c := .badArg) (by simp [byteCheck, offsetCheck])]
  simp [byteCheck, offsetCheck]

theorem firstFault_smpread {s : State} (hlive : s.liveSample (s.argN 0) = true) :
    firstFault (checksOf s .smpread) = if s.argN 1 < s.sampleSize (s.argN 0) then none else some .badArg := by
  rw [checksOf, firstFault_smp_live hlive]
  simp [offsetCheck]

theorem firstFault_smpinfo {s : State} (hlive : s.liveSample (s.argN 0) = true) :
    firstFault (checksOf s .smpinfo) = if s.argN 1 < 7 then none else some .badArg := by
  rw [checksOf, firstFault_smp_live hlive]
  simp [fieldCheck, Nat.lt_succ_iff]

/-! ### SMPCREATE (R45, R77) -/

theorem depthOf_toNat {n : Nat} (hn : n = 8 ∨ n = 16) : (depthOf n).toNat = n := by
  rcases hn with rfl | rfl <;> rfl

theorem depthOf_bytes (n : Nat) : (depthOf n).bytes = if n = 8 then 1 else 2 := apply_ite Depth.bytes _ _ _

theorem channelsOf_toNat (n : Nat) : (channelsOf n).toNat = if n = 2 then 2 else 1 := apply_ite Channels.toNat _ _ _

theorem channelsOf_toNat_of_legal {n : Nat} (hn : n = 1 ∨ n = 2) : (channelsOf n).toNat = n := by
  rcases hn with rfl | rfl <;> rfl

/-- The sample SMPCREATE makes: its format is the operands, its bytes the oracle's draw. -/
def State.drawnSample (s : State) : Sample :=
  newSample (depthOf (s.argN 0)) (channelsOf (s.argN 1)) (s.arg 2) (s.arg 3) s.nextAnswer.contents

theorem drawnSample_size (s : State) :
    s.drawnSample.size = s.argN 3 * (if s.argN 0 = 8 then 1 else 2) * (if s.argN 1 = 2 then 2 else 1) := by
  rw [← depthOf_bytes, ← channelsOf_toNat]; rfl

theorem effect_smpcreate_none {s : State} (ha : s.allocSample = none) :
    effectOf s .smpcreate = s.asking.complete .allocFail 0 := by
  rw [effectOf, ha]

theorem effect_smpcreate_some {s : State} {r : Nat} (ha : s.allocSample = some r) :
    effectOf s .smpcreate = (s.asking.putSample r s.drawnSample).complete .ok (BitVec.ofNat 32 r) := by
  rw [effectOf, ha]; rfl

theorem effect_smpcreate_sample? {s : State} {r : Nat} (ha : s.allocSample = some r) (m : Nat) :
    (effectOf s .smpcreate).sample? m = if m = r then some s.drawnSample else s.sample? m := by
  obtain ⟨h1, -⟩ := admittedHandle_some ha
  rw [effect_smpcreate_some ha]
  exact State.sample?_putSample s.asking (Nat.ne_of_gt h1) _ m

/-- Settles O42: the two format checks, then the two answers of the oracle, then which answers it can give. -/
theorem smpcreateMakesASample : Obligations.SmpcreateMakesASample := by
  refine ⟨rfl, fun s => ⟨fun hbad => ?_, fun hok hnone => ?_, fun hok r hr => ?_, fun r h1 hmax hdead hans => ?_,
    fun hans => ?_, fun hfull => admittedHandle_full hfull _⟩⟩
  · exact exec_fail ((firstFault_smpcreate s).trans (if_neg hbad))
  · exact ⟨_, exec_pass ((firstFault_smpcreate s).trans (if_pos hok)), by rw [effect_smpcreate_none hnone]; rfl⟩
  · obtain ⟨h1, hmax, hdead⟩ := admittedHandle_some hr
    have hsample := effect_smpcreate_sample? hr
    have hexec := exec_pass ((firstFault_smpcreate s).trans (if_pos hok))
    obtain ⟨hbits, hchannels⟩ := hok
    exact ⟨_, s.drawnSample, hexec, by rw [effect_smpcreate_some hr]; rfl, h1, hmax, hdead,
      (hsample r).trans (if_pos rfl), depthOf_toNat hbits, channelsOf_toNat_of_legal hchannels, rfl, rfl, rfl, rfl, rfl,
      drawnSample_size s, fun a => Memory.read_ofDraw _ _, fun m hne => (hsample m).trans (if_neg hne)⟩
  · rw [State.allocSample, hans]
    exact admittedHandle_of_dead h1 hmax hdead
  · rw [State.allocSample, hans]; rfl

/-! ### SMPDESTROY (R78) -/

/-- A sample is busy when some voice below `MAX_VOICES` plays it. -/
theorem sampleBusy_iff {s : State} {m : Word} : s.sampleBusy m.toNat = true ↔
    ∃ v : Fin 32, v.val < s.cfg.maxVoices ∧ s.voices[v].playing = true ∧ s.voices[v].sample = m := by
  constructor
  · intro hbusy
    obtain ⟨i, hi, hvoice⟩ := List.any_eq_true.mp hbusy
    have hmax := List.mem_range.mp hi
    obtain ⟨hplaying, hsample⟩ := Bool.and_eq_true_iff.mp hvoice
    refine ⟨voiceSlot i, ?_, hplaying, BitVec.toNat_inj.mp (of_decide_eq_true hsample)⟩
    rwa [voiceSlot_val (Nat.lt_of_lt_of_le hmax s.cfg.maxVoices_le)]
  · rintro ⟨v, hv, hplaying, rfl⟩
    exact sampleBusy_of_playing hv hplaying

theorem firstFault_smpdestroy_dead {s : State} (h0 : s.argN 0 ≠ 0) (hdead : s.liveSample (s.argN 0) = false) :
    firstFault (checksOf s .smpdestroy) = some .badHandle := by
  simp [checksOf, smp0Check, h0, hdead]

theorem firstFault_smpdestroy_null {s : State} (h0 : s.argN 0 = 0) : firstFault (checksOf s .smpdestroy) = none := by
  simp [checksOf, smp0Check, h0]

theorem firstFault_smpdestroy_live {s : State} (hlive : s.liveSample (s.argN 0) = true) :
    firstFault (checksOf s .smpdestroy) = if s.sampleBusy (s.argN 0) = true then some .sampleBusy else none := by
  obtain ⟨M, hM⟩ := State.liveSample_iff.mp hlive
  cases hbusy : s.sampleBusy (s.argN 0) <;>
    simp [checksOf, smp0Check, hlive, hbusy, State.sample?_ne_zero hM]

/-- Settles O43: a handle that is dead and not 0 fails the first check and a busy sample the second; handle 0 passes both and
takes the null branch of the effect, a live idle sample the other. -/
theorem smpdestroyEndsASample : Obligations.SmpdestroyEndsASample := by
  refine ⟨rfl, fun s => ⟨fun h0 hdead => exec_fail (firstFault_smpdestroy_dead h0 hdead), fun hlive hbusy => ?_,
    fun h0 => ?_, fun hlive hidle => ?_⟩⟩
  · exact exec_fail ((firstFault_smpdestroy_live hlive).trans (if_pos (sampleBusy_iff.mpr hbusy)))
  · rw [exec_pass (firstFault_smpdestroy_null h0), effectOf, if_pos h0]; rfl
  · obtain ⟨M, hM⟩ := State.liveSample_iff.mp hlive
    have hsample := effect_smpdestroy_sample? s
    have hpass := (firstFault_smpdestroy_live hlive).trans (if_neg (mt sampleBusy_iff.mp hidle))
    refine ⟨_, exec_pass hpass, ?_, State.liveSample_false.mpr ((hsample _).trans (if_pos rfl)),
      fun m hne => (hsample m).trans (if_neg hne)⟩
    rw [effectOf, if_neg (State.sample?_ne_zero hM)]; rfl

/-! ### SMPWRITE (R79) -/

/-- Settles O44: the sample ARG0 names has the one byte written, and every other entry is as before. -/
theorem smpwriteWritesAByte : Obligations.SmpwriteWritesAByte := by
  refine ⟨rfl, fun s => ⟨fun hdead => exec_fail (firstFault_smp_dead hdead _), fun hlive hbad => ?_,
    fun M hM hbyte hoff => ?_⟩⟩
  · exact exec_fail ((firstFault_smpwrite hlive).trans (if_neg (by omega)))
  · have hlive : s.liveSample (s.argN 0) = true := State.liveSample_iff.mpr ⟨M, hM⟩
    rw [← State.sampleSize_eq hM] at hoff
    have hsample := s.sample?_setSampleByte (s.argN 0) (s.argN 1) (BitVec.ofNat 8 (s.argN 2))
    rw [hM] at hsample
    refine ⟨_, { M with data := Memory.write M.data (s.argN 1) (BitVec.ofNat 8 (s.argN 2)) },
      exec_pass ((firstFault_smpwrite hlive).trans (if_pos ⟨hbyte, hoff⟩)), ?_, (hsample _).trans (if_pos rfl), rfl,
      fun a => ?_, fun m hne => (hsample m).trans (if_neg hne)⟩
    · rw [effectOf, setSampleByte_rest]; rfl
    · rw [Memory.read_write, apply_ite BitVec.toNat, toNat_field (Nat.lt_succ_of_le hbyte)]

/-! ### SMPREAD (R80) -/

/-- Settles O45: the effect is to complete with the byte, zero-extended. -/
theorem smpreadReadsAByte : Obligations.SmpreadReadsAByte := by
  refine ⟨rfl, fun s => ⟨fun hdead => exec_fail (firstFault_smp_dead hdead _), fun M hM => ?_⟩⟩
  have hfirst := firstFault_smpread (State.liveSample_iff.mpr ⟨M, hM⟩)
  rw [State.sampleSize_eq hM] at hfirst
  refine ⟨fun hbad => exec_fail (hfirst.trans (if_neg (Nat.not_lt_of_le hbad))),
    fun hoff => ⟨_, exec_pass (hfirst.trans (if_pos hoff)), ?_⟩⟩
  rw [State.sampleByte_eq hM]
  exact BitVec.toNat_setWidth_of_le (by decide)

/-! ### SMPINFO (R81) -/

/-- The fields of a sample in the order of R81; each fits RESULT. -/
theorem Sample.metadata_toNat (M : Sample) {f : Nat} (hf : f < 7) : (M.metadata f).toNat =
    [M.bits.toNat, M.channels.toNat, M.rate.toNat, M.len.toNat, M.loopStart.toNat, M.loopEnd.toNat,
      M.priority.toNat][f] := by
  match f with
  | 0 => cases hbits : M.bits <;> simp [Sample.metadata, hbits, Depth.toNat]
  | 1 => cases hchannels : M.channels <;> simp [Sample.metadata, hchannels, Channels.toNat]
  | 2 | 3 | 4 | 5 => rfl
  | 6 => exact BitVec.toNat_setWidth_of_le (by decide)

/-- Settles O46: the effect is to complete with the field. -/
theorem smpinfoReadsMetadata : Obligations.SmpinfoReadsMetadata := by
  refine ⟨rfl, fun s => ⟨fun hdead => exec_fail (firstFault_smp_dead hdead _), fun M hM => ?_⟩⟩
  have hfirst := firstFault_smpinfo (State.liveSample_iff.mpr ⟨M, hM⟩)
  refine ⟨fun hbad => exec_fail (hfirst.trans (if_neg (by omega))),
    fun hf => ⟨_, exec_pass (hfirst.trans (if_pos hf)), ?_⟩⟩
  rw [State.sampleField_eq hM]
  exact M.metadata_toNat hf

end Sys2Proof.Machine

/-! The voice pool commands (44_voice_pool.md R82 to R85): the pool and voice checks, and each effect as what it writes of the
pool registers and the voice records and what it leaves. -/

namespace Sys2Proof.Machine

/-! ### The pool check and the voice check (R82) -/

theorem firstFault_pool_uninit {s : State} (hp : s.poolState = .uninit) (l : List Check) :
    firstFault (poolChecks s ++ l) = some .poolNotReady := by
  simp [poolChecks, hp]

theorem firstFault_pool_failed {s : State} (hp : s.poolState = .failed) (l : List Check) :
    firstFault (poolChecks s ++ l) = some .poolFailed := by
  simp [poolChecks, hp]

theorem firstFault_pool_ready {s : State} (hp : s.poolState = .ready) (l : List Check) :
    firstFault (poolChecks s ++ l) = firstFault l := by
  simp [poolChecks, hp]

/-- Settles O47: VALLOC's checks begin with the pool check, and those of every other pool command with the pool check and the
voice check. -/
theorem poolAndVoiceChecksComeFirst : Obligations.PoolAndVoiceChecksComeFirst := by
  intro i s hn
  by_cases ha : i = .valloc
  · subst ha
    exact ⟨fun hp => exec_fail (firstFault_pool_uninit hp _), fun hp => exec_fail (firstFault_pool_failed hp _),
      fun hne => absurd rfl hne⟩
  · obtain ⟨rest, hl⟩ := checksOf_voice s hn ha
    obtain ⟨huninit, hfailed, hready⟩ := voiceGuarded_of_checks hl
    exact ⟨huninit, hfailed, fun _ => hready⟩

/-! ### PINIT (R83) -/

theorem firstFault_pinit_ready {s : State} (hp : s.poolState = .ready) :
    firstFault (checksOf s .pinit) = some .badState := by
  simp [checksOf, hp]

theorem firstFault_pinit_failed {s : State} (hp : s.poolState = .failed) :
    firstFault (checksOf s .pinit) = some .poolFailed := by
  simp [checksOf, hp]

theorem firstFault_pinit_uninit {s : State} (hp : s.poolState = .uninit) :
    firstFault (checksOf s .pinit) = if s.argN 0 ≤ s.cfg.maxVoices then none else some .badArg := by
  simp [checksOf, hp, capCheck]

theorem initPool_failed {s : State} (hb : s.cfg.backendPresent = true) (ha : s.nextAnswer.backendMask = none)
    (cap : Nat) :
    s.initPool cap = { (s.emit .init).asking with poolState := .failed }.complete .initFail 0 := by
  rw [State.initPool, if_pos hb, ha]

/-- With channels reported, by the backend or for want of one, PINIT makes the pool READY in a state that differs from the one
before only by INIT and the oracle's bookkeeping. -/
theorem initPool_ready {s : State} {mask : Word}
    (hm : (s.cfg.backendPresent = true ∧ s.nextAnswer.backendMask = some mask) ∨
      (s.cfg.backendPresent = false ∧ mask = 0xFFFFFFFF)) (cap : Nat) :
    ∃ u : State, s.initPool cap = (u.readyPool cap mask).complete .ok 0 ∧
      u = { s with
            log := s.log ++ (if s.cfg.backendPresent then [.init] else [])
            answers := u.answers, asked := u.asked } := by
  rcases hm with ⟨hb, ha⟩ | ⟨hb, rfl⟩
  · exact ⟨(s.emit .init).asking, by rw [State.initPool, if_pos hb, ha], by rw [if_pos hb]; rfl⟩
  · have hno : ¬s.cfg.backendPresent = true := by rw [hb]; exact Bool.false_ne_true
    exact ⟨s, by rw [State.initPool, if_neg hno], by rw [if_neg hno, List.append_nil]⟩

/-- Every record of a pool just made READY is the initial one (R25). -/
theorem readyPool_voice (s : State) (cap : Nat) (mask : Word) (v : Fin 32) :
    (s.readyPool cap mask).voice v = Voice.initial := Vector.getElem_replicate v.isLt

/-- Settles O48: the pool state selects the fault; in an UNINIT pool the effect is decided by what the backend reports. -/
theorem pinitInitialisesThePool : Obligations.PinitInitialisesThePool := by
  refine ⟨rfl, fun s => ⟨fun hp => exec_fail (firstFault_pinit_ready hp), fun hp => exec_fail (firstFault_pinit_failed hp),
    fun hp hcap => ?_, fun hp hcap hb ha => ?_, fun mask hp hcap hm => ?_⟩⟩
  · exact exec_fail ((firstFault_pinit_uninit hp).trans (if_neg (Nat.not_le_of_lt hcap)))
  · exact ⟨_, exec_pass ((firstFault_pinit_uninit hp).trans (if_pos hcap)), by rw [effectOf, initPool_failed hb ha]; rfl⟩
  · have hexec := exec_pass ((firstFault_pinit_uninit hp).trans (if_pos hcap))
    obtain ⟨u, hinit, hu⟩ := initPool_ready hm (s.argN 0)
    rw [effectOf, hinit] at hexec
    have hfits : s.argN 0 < 2 ^ 6 := by
      have := s.cfg.maxVoices_le
      omega
    exact ⟨_, hexec, by rw [hu]; rfl, toNat_field hfits, getLsbD_lowMask mask (s.argN 0),
      fun v _ => readyPool_voice u (s.argN 0) mask v⟩

/-! ### VALLOC (R84) -/

theorem firstFault_valloc_ready {s : State} (hp : s.poolState = .ready) : firstFault (checksOf s .valloc) =
    if s.argN 0 = 0 ∨ s.liveSample (s.argN 0) = true then none else some .badHandle := by
  rw [checksOf, firstFault_pool_ready hp]
  simp [smp0Check]

theorem State.sampleRate_zero (s : State) : s.sampleRate 0 = 0 := rfl

theorem State.sampleRate_eq {s : State} {m : Nat} {M : Sample} (hM : s.sample? m = some M) : s.sampleRate m = M.rate := by
  rw [State.sampleRate, hM]

theorem lowestFree_eq_some {s : State} {i : Fin 32} (hcap : i.val < s.capacity.toNat)
    (hfree : s.freeMask.getLsbD i = true) (hlow : ∀ j : Fin 32, j < i → s.freeMask.getLsbD j = false) :
    s.lowestFree = some i.val :=
  find_range_lowest hcap hfree fun j hj => hlow ⟨j, Nat.lt_trans hj i.isLt⟩ hj

/-- The scan finds nothing when no slot of the mask below CAPACITY is free; above the mask there is none. -/
theorem lowestFree_eq_none {s : State}
    (hnone : ∀ j : Fin 32, j.val < s.capacity.toNat → s.freeMask.getLsbD j = false) : s.lowestFree = none := by
  refine List.find?_eq_none.mpr fun j hj hfree => ?_
  have hfalse := hnone ⟨j, BitVec.lt_of_getLsbD hfree⟩ (List.mem_range.mp hj)
  exact Bool.false_ne_true (hfalse.symm.trans hfree)

theorem effect_valloc_none {s : State} (hl : s.lowestFree = none) :
    effectOf s .valloc = s.complete .noneFree 0xFFFFFFFF := by
  rw [effectOf, hl]

theorem effect_valloc_some {s : State} {i : Fin 32} (hl : s.lowestFree = some i.val) :
    effectOf s .valloc =
      ((s.markUsed i).setVoice i
        { s.voice i with
          playing := false
          position := 0
          rate := s.sampleRate (s.argN 0)
          sample := s.arg 0 }).complete .ok (BitVec.ofNat 32 i.val) := by
  have hslot : voiceSlot i.val = i := voiceSlot_eq rfl
  simp only [effectOf, hl, hslot]

/-- Settles O49: the pool check, then the sample check, then the two answers of the scan. -/
theorem vallocTakesTheLowestFreeVoice : Obligations.VallocTakesTheLowestFreeVoice := by
  refine ⟨rfl, fun s => ⟨fun hp => exec_fail (firstFault_pool_uninit hp _), fun hp => exec_fail (firstFault_pool_failed hp _),
    fun hp h0 hdead => ?_, fun i rate hp hrate hcap hfree hlow => ?_, fun hp hok hnone => ?_⟩⟩
  · have hbad : ¬(s.argN 0 = 0 ∨ s.liveSample (s.argN 0) = true) := by simp [h0, hdead]
    exact exec_fail ((firstFault_valloc_ready hp).trans (if_neg hbad))
  · have hsample : (s.argN 0 = 0 ∨ s.liveSample (s.argN 0) = true) ∧ s.sampleRate (s.argN 0) = rate := by
      rcases hrate with ⟨h0, rfl⟩ | ⟨M, hM, rfl⟩
      · exact ⟨.inl h0, by rw [h0]; exact s.sampleRate_zero⟩
      · exact ⟨.inr (State.liveSample_iff.mpr ⟨M, hM⟩), State.sampleRate_eq hM⟩
    obtain ⟨hok, rfl⟩ := hsample
    refine ⟨(s.markUsed i).freeMask, ?_, fun j => ?_⟩
    · rw [exec_pass ((firstFault_valloc_ready hp).trans (if_pos hok)),
        effect_valloc_some (lowestFree_eq_some hcap hfree hlow)]
      rfl
    · rw [decide_not]
      exact s.isFree_markUsed i j
  · rw [exec_pass ((firstFault_valloc_ready hp).trans (if_pos hok)), effect_valloc_none (lowestFree_eq_none hnone)]
    rfl

/-! ### VFREE (R85) -/

/-- Settles O50: the checks of VFREE are those of R82, and its effect silences the voice ARG0 names and sets its bit. -/
theorem vfreeSilencesAndFrees : Obligations.VfreeSilencesAndFrees := by
  refine ⟨rfl, fun s => ⟨voiceGuarded_of_checks (List.append_nil _).symm, fun v hv => ?_⟩⟩
  refine ⟨(s.markFree v).freeMask, ?_, s.isFree_markFree v⟩
  rw [exec_pass (i := .vfree) hv.pass, effect_vfree, hv.voiceArg]
  rfl

end Sys2Proof.Machine

/-! The voice control commands (45_voice_control.md R86 to R97): `do_start` with its byte length, the normalized codes, and
each command as what it writes of the voice it names and what it logs. -/

namespace Sys2Proof.Machine

/-! ### `do_start` and the byte length (R86, R87) -/

theorem playFormat_eq (d : Depth) : playFormat d = if d = .bits8 then .pcm8 else .pcm16 := by cases d <;> rfl

/-- Past its guards `do_start` sets playing and logs one PLAY. -/
theorem startVoice_play {s : State} {v : Fin 32} {M : Sample} (hfree : s.isFree v = false)
    (hM : s.sample? (s.voice v).sample.toNat = some M) (hsize : M.size ≠ 0) :
    s.startVoice v = (s.setVoice v { s.voice v with playing := true }).emit
      (.play v (s.voice v).loop (playFormat M.bits) (s.voice v).rate (s.voice v).vol (s.voice v).pan
        (s.voice v).sample (byteLen s.cfg.stereoByteLen M)) := by
  simp only [State.startVoice, hfree, hM, if_neg hsize, Bool.false_eq_true, if_false]

/-- Settles O51: the three guards of `do_start`, and its effect past them. -/
theorem startProcedure : Obligations.StartProcedure := by
  intro s v
  refine ⟨fun hfree => startVoice_guard (.inl hfree), fun hdead => startVoice_guard (.inr (.inl hdead)),
    fun hempty => startVoice_guard (.inr (.inr hempty)), fun M hfree hM hsize => ?_⟩
  rw [startVoice_play hfree hM hsize, playFormat_eq]
  rfl

theorem Depth.toNat_eq_bytes (d : Depth) : d.toNat = d.bytes * 8 := by cases d <;> rfl

theorem Depth.bytes_le (d : Depth) : d.bytes ≤ 2 := by cases d <;> decide

theorem Channels.toNat_le (c : Channels) : c.toNat ≤ 2 := by cases c <;> decide

/-- The division of R87 is exact: a depth is a whole number of bytes. -/
theorem byteLen_legacy (M : Sample) : byteLen .legacy M = M.len.toNat * M.bits.bytes := by
  rw [byteLen, Depth.toNat_eq_bytes, ← Nat.mul_assoc, Nat.mul_div_cancel _ (by decide)]

theorem byteLen_fixed (M : Sample) : byteLen .fixed M = M.size :=
  congrArg (· * M.channels.toNat) (byteLen_legacy M)

/-- A sample is below 2^32 frames of at most four bytes (R32). -/
theorem Sample.size_lt (M : Sample) : M.size < 2 ^ 34 := by
  have hframe : M.bits.bytes * M.channels.toNat ≤ 2 * 2 := Nat.mul_le_mul M.bits.bytes_le M.channels.toNat_le
  calc M.size = M.len.toNat * (M.bits.bytes * M.channels.toNat) := Nat.mul_assoc _ _ _
    _ ≤ M.len.toNat * 4 := Nat.mul_le_mul_left _ hframe
    _ < 2 ^ 34 := by have := M.len.isLt; omega

/-- The bytes of one channel are no more than those of all. -/
theorem byteLen_le_size (mode : StereoByteLen) (M : Sample) : byteLen mode M ≤ M.size := by
  cases mode with
  | legacy =>
    have hpos : 0 < M.channels.toNat := by cases M.channels <;> decide
    rw [byteLen_legacy]
    exact Nat.le_mul_of_pos_right _ hpos
  | fixed => exact (byteLen_fixed M).le

/-- Settles O52: both lengths as products of frames, bytes and channels. -/
theorem byteLength : Obligations.ByteLength := by
  intro M
  refine ⟨?_, ?_, fun hstereo => ?_, byteLen_fixed M, fun mode => (byteLen_le_size mode M).trans_lt M.size_lt⟩
  · rw [byteLen_legacy, Depth.toNat_eq_bytes, Nat.mul_assoc]
  · rw [byteLen_fixed, Sample.size, dataSize, Depth.toNat_eq_bytes]
    ring
  · rw [byteLen_legacy, Sample.size, dataSize, hstereo]
    rfl

/-! ### The normalized volume and pan (R88) -/

theorem Byte.cast_toNat_le (c : Byte) : (c.toNat : ℚ) ≤ 255 := by
  exact_mod_cast Nat.le_of_lt_succ c.isLt

theorem volumeN_range (c : Byte) : 0 ≤ volumeN c ∧ volumeN c ≤ 1 := by
  have hc := Byte.cast_toNat_le c
  unfold volumeN
  constructor
  · positivity
  · linarith

theorem panN_range (c : Byte) : -1 ≤ panN c ∧ panN c ≤ 127 / 128 := by
  have hc := Byte.cast_toNat_le c
  have h0 : (0 : ℚ) ≤ c.toNat := Nat.cast_nonneg _
  unfold panN
  constructor <;> linarith

/-- Settles O53: the formulas are the definitions, the ranges those of a byte, and the five codes are evaluated. -/
theorem volumeAndPanRanges : Obligations.VolumeAndPanRanges := by
  have hcentre : (128 : Byte).toNat = 128 := rfl
  have hmax : (255 : Byte).toNat = 255 := rfl
  refine ⟨fun c => ⟨rfl, rfl⟩, fun c => ?_, ?_, ?_, ?_, ?_, ?_⟩
  · obtain ⟨hv0, hv1⟩ := volumeN_range c
    exact ⟨hv0, hv1, panN_range c⟩
  all_goals norm_num [volumeN, panN, hcentre, hmax]

/-! ### Commands guarded by the pool and voice checks alone (R82) -/

/-- A command whose only checks are those of R82 is guarded by them. -/
theorem voiceGuarded_of_voiceChecks {i : Instr} {s : State} (hl : checksOf s i = voiceChecks s) : VoiceGuarded i s :=
  voiceGuarded_of_checks (hl.trans (List.append_nil _).symm)

/-- Such a command has its effect when ARG0 names a voice. -/
theorem VoiceNamed.exec {i : Instr} {s : State} {v : Fin 32} (hv : VoiceNamed s v) (hl : checksOf s i = voiceChecks s) :
    exec i s = .next (effectOf s i) := exec_pass (hl ▸ hv.pass)

/-- Settles O54: bit 0 of the mode is its parity. -/
theorem vplaymodeSetsLoop : Obligations.VplaymodeSetsLoop := by
  refine ⟨rfl, fun s => ⟨voiceGuarded_of_voiceChecks rfl, fun v hv => ?_⟩⟩
  rw [hv.exec rfl, effectOf, hv.voiceArg, getLsbD_zero_eq]
  rfl

/-- Settles O55: VSTART is `do_start`, which the silent guards make a no-op; a voice without a sample names no live one. -/
theorem vstartStarts : Obligations.VstartStarts := by
  refine ⟨rfl, fun s => ⟨voiceGuarded_of_voiceChecks rfl, fun v hv => ?_⟩⟩
  have hexec : exec .vstart s = .next ((s.startVoice v).complete .ok 0) := by rw [hv.exec rfl, effectOf, hv.voiceArg]
  refine ⟨hexec, fun hguard => ?_⟩
  have hstart : s.startVoice v = s := by
    rcases hguard with hfree | hnone | hdead | hempty
    · exact startVoice_guard (.inl hfree)
    · have hzero : (s.voice v).sample = 0 := hnone
      exact startVoice_guard (.inr (.inl (by rw [hzero]; rfl)))
    · exact startVoice_guard (.inr (.inl hdead))
    · exact startVoice_guard (.inr (.inr hempty))
  rw [hexec, hstart]
  rfl

/-- Settles O56: the effect of VSTOP is the SILENCE and the cleared flag. -/
theorem vstopSilences : Obligations.VstopSilences := by
  refine ⟨rfl, fun s => ⟨voiceGuarded_of_voiceChecks rfl, fun v hv => ?_⟩⟩
  rw [hv.exec rfl, effectOf, hv.voiceArg]
  rfl

theorem setPosition_restart {s : State} {v : Fin 32} {pos : Word} (hplays : (s.voice v).playing = true) (hzero : pos = 0) :
    s.setPosition v pos = (s.setVoice v { s.voice v with position := pos }).startVoice v := if_pos ⟨hplays, hzero⟩

theorem setPosition_store {s : State} {v : Fin 32} {pos : Word} (hkeeps : (s.voice v).playing = false ∨ pos ≠ 0) :
    s.setPosition v pos = s.setVoice v { s.voice v with position := pos } := by
  refine if_neg ?_
  rintro ⟨hplays, hzero⟩
  rcases hkeeps with hstopped | hpos
  · exact Bool.false_ne_true (hstopped.symm.trans hplays)
  · exact hpos hzero

/-- Settles O57: the restart is decided by the playing flag and the position. -/
theorem vsetposStoresOrRestarts : Obligations.VsetposStoresOrRestarts := by
  refine ⟨rfl, fun s => ⟨voiceGuarded_of_voiceChecks rfl, fun v hv => ?_⟩⟩
  have hexec : exec .vsetpos s = .next ((s.setPosition v (s.arg 1)).complete .ok 0) := by
    rw [hv.exec rfl, effectOf, hv.voiceArg]
  refine ⟨fun hplays hzero => ?_, fun hkeeps => ?_⟩
  · rw [hexec, setPosition_restart hplays hzero]
    rfl
  · rw [hexec, setPosition_store hkeeps]
    rfl

theorem setRate_restart {s : State} {v : Fin 32} (hplays : (s.voice v).playing = true) (rate : Word) :
    s.setRate v rate = (s.setVoice v { s.voice v with rate := rate }).startVoice v := if_pos hplays

theorem setRate_store {s : State} {v : Fin 32} (hstopped : (s.voice v).playing = false) (rate : Word) :
    s.setRate v rate = s.setVoice v { s.voice v with rate := rate } :=
  if_neg fun hplays => Bool.false_ne_true (hstopped.symm.trans hplays)

/-- VSETFREQ and VSWEEPFREQ have one effect, with the rate from ARG1 or ARG2 (R93, R96). -/
theorem VoiceNamed.exec_rate {i : Instr} {s : State} {v : Fin 32} {rate : Word} (hv : VoiceNamed s v)
    (hi : (i = .vsetfreq ∧ rate = s.arg 1) ∨ (i = .vsweepfreq ∧ rate = s.arg 2)) :
    Machine.exec i s = .next ((s.setRate v rate).complete .ok 0) := by
  rcases hi with ⟨rfl, rfl⟩ | ⟨rfl, rfl⟩ <;> rw [hv.exec rfl, effectOf, hv.voiceArg]

/-- Settles O58: for both commands the restart is decided by the playing flag. -/
theorem rateCommandsStoreAndRestart : Obligations.RateCommandsStoreAndRestart := by
  refine ⟨rfl, rfl, fun s => ⟨voiceGuarded_of_voiceChecks rfl, voiceGuarded_of_voiceChecks rfl,
    fun i rate v hi hv => ⟨fun hplays => ?_, fun hstopped => ?_⟩⟩⟩
  · rw [hv.exec_rate hi, setRate_restart hplays]
    rfl
  · rw [hv.exec_rate hi, setRate_store hstopped]
    rfl

/-! ### Commands that check a code as well (R94, R95, R97) -/

/-- A command that checks a code after the checks of R82 raises BAD_ARG above 255. -/
theorem VoiceNamed.raises_badArg {i : Instr} {s : State} {v : Fin 32} {k : Fin 10} (hv : VoiceNamed s v)
    (hl : checksOf s i = voiceChecks s ++ [byteCheck s k]) (hk : 255 < s.argN k) : Raises i s .badArg :=
  exec_fail (hl ▸ hv.byte_fail hk)

/-- Such a command has its effect when the code is a byte. -/
theorem VoiceNamed.exec_byte {i : Instr} {s : State} {v : Fin 32} {k : Fin 10} {c : Byte} (hv : VoiceNamed s v)
    (hl : checksOf s i = voiceChecks s ++ [byteCheck s k]) (hc : c.toNat = s.argN k) :
    Machine.exec i s = .next (effectOf s i) := by
  have hk : s.argN k ≤ 255 := hc ▸ Nat.le_of_lt_succ c.isLt
  exact exec_pass (hl ▸ hv.byte_pass hk)

/-- The checks of VSETVOL and VRAMPVOL, and their one effect, with the code from ARG1 or ARG2. -/
theorem volumeCommand_checks_effect {i : Instr} {k : Fin 10} (hi : (i = .vsetvol ∧ k = 1) ∨ (i = .vrampvol ∧ k = 2)) (s : State) :
    checksOf s i = voiceChecks s ++ [byteCheck s k] ∧
      effectOf s i = (s.setVol s.voiceArg (BitVec.ofNat 8 (s.argN k))).complete .ok 0 := by
  rcases hi with ⟨rfl, rfl⟩ | ⟨rfl, rfl⟩ <;> exact ⟨rfl, rfl⟩

/-- Settles O59: for both commands the code is checked, stored, and sent if the voice plays. -/
theorem volumeCommandsStoreAndPush : Obligations.VolumeCommandsStoreAndPush := by
  refine ⟨rfl, rfl, fun s => ⟨voiceGuarded_of_checks rfl, voiceGuarded_of_checks rfl, fun i k v hi hv => ?_⟩⟩
  obtain ⟨hchecks, heffect⟩ := volumeCommand_checks_effect hi s
  refine ⟨hv.raises_badArg hchecks, fun vol hvol => ?_⟩
  rw [hv.exec_byte hchecks hvol, heffect, hv.voiceArg, ofNat_eq_of_toNat hvol, State.setVol, pushVolPan_setVoice]
  rfl

/-- Settles O60: the code is checked, stored, and sent if the voice plays. -/
theorem vsetpanStoresAndPushes : Obligations.VsetpanStoresAndPushes := by
  refine ⟨rfl, fun s => ⟨voiceGuarded_of_checks rfl, fun v hv => ⟨hv.raises_badArg rfl, fun pan hpan => ?_⟩⟩⟩
  rw [hv.exec_byte rfl hpan, effectOf, hv.voiceArg, ofNat_eq_of_toNat hpan, State.setPan, pushVolPan_setVoice]
  rfl

end Sys2Proof.Machine

/-! Which faults a command can raise (60_exceptions.md R99), and the commands in a FAILED pool (R111). -/

namespace Sys2Proof.Machine

/-! ### The fault table (R99) -/

/-- Each check of a command raises a fault of the command's rows, whatever the state. -/
theorem checksOf_code_mem {i : Instr} {s : State} {d : Check} (hd : d ∈ checksOf s i) : d.2 ∈ faultsOf i := by
  have hcodes : (checksOf s i).map Prod.snd ⊆ faultsOf i := by
    cases i <;>
      simp [checksOf, faultsOf, voiceChecks, poolChecks, voiceCheck, surfCheck, surf0Check, smpCheck, smp0Check, dimCheck,
        byteCheck, c16Check, bitsCheck, channelsCheck, fieldCheck, capCheck, offsetCheck]
  exact hcodes (List.mem_map_of_mem hd)

/-- Settles O18: a command whose effect happens ends without a fault, and else the fault is that of one of its checks. -/
theorem faultsAreListed : Obligations.FaultsAreListed := by
  intro i s t c h hst
  rcases exec_cases h with ⟨d, hd, rfl⟩ | ⟨-, rfl⟩
  · rw [State.raiseFault_status, Status.fault.injEq] at hst
    subst hst
    exact checksOf_code_mem (firstFault_mem hd)
  · have hok := effect_status i s
    rw [hst] at hok
    cases hok

/-! ### Commands that do not see POOL_STATE (R111) -/

/-- The state with another value in POOL_STATE. -/
def State.setPoolState (s : State) (p : PoolState) : State := { s with poolState := p }

section

variable (s : State) (p : PoolState)

theorem setPoolState_surfaceBlind : SurfaceBlind fun s => s.setPoolState p := ⟨fun _ => rfl, fun _ _ => rfl⟩

theorem raiseFault_setPoolState (c : FaultCode) :
    (s.setPoolState p).raiseFault c = (s.raiseFault c).setPoolState p := by
  rw [State.raiseFault_eq, State.raiseFault_eq]; rfl

theorem setSampleByte_setPoolState (m i : Nat) (b : Byte) :
    (s.setPoolState p).setSampleByte m i b = (s.setSampleByte m i b).setPoolState p := by
  have hm : (s.setPoolState p).sample? m = s.sample? m := rfl
  rw [State.setSampleByte, State.setSampleByte, hm]
  cases s.sample? m <;> rfl

/-- No check of a command that is not the pool's reads POOL_STATE. -/
theorem checksOf_setPoolState {i : Instr} (hn : needsPool i = false) (hp : i ≠ .pinit) :
    checksOf (s.setPoolState p) i = checksOf s i := by
  cases i <;> simp only [needsPool, Bool.true_eq_false] at hn
  case pinit => exact absurd rfl hp
  all_goals rfl

/-- The effect of a command that is not the pool's neither reads nor writes POOL_STATE. -/
theorem effectOf_setPoolState {i : Instr} (hn : needsPool i = false) (hp : i ≠ .pinit) :
    effectOf (s.setPoolState p) i = (effectOf s i).setPoolState p := by
  have hblind := setPoolState_surfaceBlind p
  cases i <;> simp only [needsPool, Bool.true_eq_false] at hn
  case pinit => exact absurd rfl hp
  case screate =>
    cases ha : s.allocSurface with
    | none => rw [effect_screate_none ha, effect_screate_none (s := s.setPoolState p) ha]; rfl
    | some r => rw [effect_screate_some ha, effect_screate_some (s := s.setPoolState p) ha]; rfl
  case smpcreate =>
    cases ha : s.allocSample with
    | none => rw [effect_smpcreate_none ha, effect_smpcreate_none (s := s.setPoolState p) ha]; rfl
    | some r => rw [effect_smpcreate_some ha, effect_smpcreate_some (s := s.setPoolState p) ha]; rfl
  case sdestroy => rw [effectOf, effectOf, apply_ite (State.setPoolState · p)]; rfl
  case smpdestroy => rw [effectOf, effectOf, apply_ite (State.setPoolState · p)]; rfl
  case sclear => exact congrArg (State.complete · .ok 0) (hblind.fillSurface s _ _).symm
  case sputpix => exact congrArg (State.complete · .ok 0) (hblind.setPixel s _ _ _ _).symm
  case blitMasked => exact congrArg (State.complete · .ok 0) (hblind.blit s _ _ _ _ _ _ _ _).symm
  case blitStretch => exact congrArg (State.complete · .ok 0) (hblind.blit s _ _ _ _ _ _ _ _).symm
  case smpwrite => exact congrArg (State.complete · .ok 0) (setSampleByte_setPoolState s p _ _ _)
  all_goals rfl

/-- A command that is not the pool's runs the same whatever POOL_STATE holds. -/
theorem exec_setPoolState {i : Instr} {t : State} (hn : needsPool i = false) (hp : i ≠ .pinit) (h : exec i s = .next t) :
    exec i (s.setPoolState p) = .next (t.setPoolState p) := by
  have hchecks := congrArg firstFault (checksOf_setPoolState s p hn hp)
  rcases exec_cases h with ⟨c, hc, rfl⟩ | ⟨hc, rfl⟩
  · rw [exec_fail (hchecks.trans hc), raiseFault_setPoolState]
  · rw [exec_pass (hchecks.trans hc), effectOf_setPoolState s p hn hp]

end

/-- FAILED is left by no step but reset: every other change of POOL_STATE starts from UNINIT (R21). -/
theorem step_keeps_failed {s t : State} (h : step s = .next t) (hfailed : s.poolState = .failed)
    (hr : s.pending.head? ≠ some .reset) : t.poolState = .failed := by
  refine Decidable.byContradiction fun hne => ?_
  obtain ⟨-, hchange⟩ := poolStateTransitions
  rcases hchange s t h (hfailed ▸ hne) with ⟨hreset, -⟩ | ⟨-, huninit, -⟩
  · exact hr hreset
  · cases hfailed.symm.trans huninit

/-- Settles O21: the pool checks and PINIT's own raise POOL_FAILED, no change of POOL_STATE but reset starts from FAILED, and
the other commands neither read nor write POOL_STATE. -/
theorem failedPoolRefuses : Obligations.FailedPoolRefuses := by
  refine ⟨fun i s hfailed hi => ?_, fun s t => step_keeps_failed, fun i s t p hn hp h => exec_setPoolState s p hn hp h⟩
  rcases hi with hn | rfl
  · obtain ⟨-, hraises, -⟩ := poolAndVoiceChecksComeFirst i s hn
    exact hraises hfailed
  · exact exec_fail (firstFault_pinit_failed hfailed)

end Sys2Proof.Machine

/-! Reset, the commands' completion, and what ends a playing voice (70_reset_and_hazards.md R112, R119, R124). -/

namespace Sys2Proof.Machine

/-! ### Reset and completion (R112, R124) -/

/-- Settles O11: the reset event is performed with the rest still pending, and `afterReset` sets every other field of the block. -/
theorem resetEvent : Obligations.ResetEvent := by
  intro s rest hp
  rw [step_event hp]
  rfl

theorem raiseFault_keeps_outside (s : State) (c : FaultCode) :
    (s.raiseFault c).pending = s.pending ∧ (s.raiseFault c).cfg = s.cfg ∧ (s.raiseFault c).reads = s.reads ∧
      (s.raiseFault c).seen = s.seen ∧ (s.raiseFault c).cmd = s.cmd := by
  rw [State.raiseFault_eq]
  exact ⟨rfl, rfl, rfl, rfl, rfl⟩

/-- Settles O13: a command raises the fault of its first failing check or has its effect, and neither touches those fields. -/
theorem commandsAlwaysComplete : Obligations.CommandsAlwaysComplete := by
  refine ⟨fun s hp => by rw [step, nextEvent, hp], fun i s => ?_⟩
  cases hc : firstFault (checksOf s i) with
  | some c => exact ⟨_, exec_fail hc, raiseFault_keeps_outside s c⟩
  | none =>
    have hun := effect_untouched i s
    exact ⟨_, exec_pass hc, hun.pending, hun.cfg, hun.reads, hun.seen, hun.cmd⟩

/-! ### Operations that stop no voice (R119) -/

/-- Every voice that plays in `s` plays in `t`. -/
def KeepsPlaying (s t : State) : Prop := ∀ v : Fin 32, (s.voice v).playing = true → (t.voice v).playing = true

theorem KeepsPlaying.refl (s : State) : KeepsPlaying s s := fun _ => id

theorem KeepsPlaying.trans {s t u : State} (a : KeepsPlaying s t) (b : KeepsPlaying t u) : KeepsPlaying s u :=
  fun v h => b v (a v h)

theorem keepsPlaying_of_voices {s t : State} (h : t.voices = s.voices) : KeepsPlaying s t := by
  intro v hv
  rwa [State.voice, h]

theorem setVoice_keepsPlaying {s : State} {v : Fin 32} {V : Voice} (hV : (s.voice v).playing = true → V.playing = true) :
    KeepsPlaying s (s.setVoice v V) := by
  intro u hu
  rw [State.voice_setVoice]
  split
  next huv => exact hV (huv ▸ hu)
  next => exact hu

theorem startVoice_keepsPlaying (s : State) (v : Fin 32) : KeepsPlaying s (s.startVoice v) := by
  rcases startVoice_cases s v with h | ⟨-, -, e, h⟩ <;> rw [h]
  · exact KeepsPlaying.refl s
  · exact (setVoice_keepsPlaying fun _ => rfl).trans (keepsPlaying_of_voices rfl)

theorem pushVolPan_keepsPlaying (s : State) (v : Fin 32) : KeepsPlaying s (s.pushVolPan v) := by
  unfold State.pushVolPan
  split <;> exact keepsPlaying_of_voices rfl

theorem setRate_keepsPlaying (s : State) (v : Fin 32) (rate : Word) : KeepsPlaying s (s.setRate v rate) := by
  have hset : KeepsPlaying s (s.setVoice v { s.voice v with rate := rate }) := setVoice_keepsPlaying id
  unfold State.setRate
  split
  · exact hset.trans (startVoice_keepsPlaying _ v)
  · exact hset

theorem setPosition_keepsPlaying (s : State) (v : Fin 32) (pos : Word) : KeepsPlaying s (s.setPosition v pos) := by
  have hset : KeepsPlaying s (s.setVoice v { s.voice v with position := pos }) := setVoice_keepsPlaying id
  unfold State.setPosition
  split
  · exact hset.trans (startVoice_keepsPlaying _ v)
  · exact hset

theorem setVol_keepsPlaying (s : State) (v : Fin 32) (vol : Byte) : KeepsPlaying s (s.setVol v vol) :=
  (setVoice_keepsPlaying (V := { s.voice v with vol := vol }) id).trans (pushVolPan_keepsPlaying _ v)

theorem setPan_keepsPlaying (s : State) (v : Fin 32) (pan : Byte) : KeepsPlaying s (s.setPan v pan) :=
  (setVoice_keepsPlaying (V := { s.voice v with pan := pan }) id).trans (pushVolPan_keepsPlaying _ v)

/-! ### Each command and a playing voice (R119) -/

/-- VALLOC takes a free slot, and no playing voice's slot is free (R26, R84). -/
theorem effect_valloc_keepsPlaying {s : State} (hs : s.voicesOk) : KeepsPlaying s (effectOf s .valloc) := by
  cases hl : s.lowestFree with
  | none => simp only [effectOf, hl]; exact keepsPlaying_of_voices rfl
  | some n =>
    simp only [effectOf, hl]
    refine setVoice_keepsPlaying (s := s.markUsed (voiceSlot n)) fun hv => ?_
    obtain ⟨-, hfree⟩ := lowestFree_some hl
    obtain ⟨-, hused, -⟩ := hs _ hv
    cases hused.symm.trans hfree

/-- PINIT runs in a pool that is not READY, whose masks are 0, and a playing voice is a reported one (R24, R26, R83). -/
theorem effect_pinit_keepsPlaying {s : State} (hpool : s.poolOk) (hs : s.voicesOk)
    (hc : firstFault (checksOf s .pinit) = none) : KeepsPlaying s (effectOf s .pinit) := by
  intro v hv
  have hnot : s.poolState ≠ .ready := fun hr => by rw [firstFault_pinit_ready hr] at hc; cases hc
  obtain ⟨-, hzero, -⟩ := hpool
  obtain ⟨-, -, havail⟩ := hzero hnot
  obtain ⟨hset, -⟩ := hs v hv
  simp [havail] at hset

/-- Of the commands that need the pool, only VSTOP and VFREE clear the playing flag of a voice that plays. -/
theorem effect_pool_keepsPlaying {i : Instr} {s : State} (hs : s.voicesOk) (hn : needsPool i = true)
    (hi : ¬(i = .vstop ∨ i = .vfree)) : KeepsPlaying s (effectOf s i) := by
  cases i <;> simp only [needsPool, Bool.false_eq_true] at hn
  case valloc => exact effect_valloc_keepsPlaying hs
  case vstop => exact absurd (.inl rfl) hi
  case vfree => exact absurd (.inr rfl) hi
  case vplaymode =>
    exact setVoice_keepsPlaying (V := { s.voice s.voiceArg with loop := (s.arg 1).getLsbD 0 }) id
  case vstart => exact startVoice_keepsPlaying s _
  case vsetpos => exact setPosition_keepsPlaying s _ _
  case vsetfreq => exact setRate_keepsPlaying s _ _
  case vsweepfreq => exact setRate_keepsPlaying s _ _
  case vsetvol => exact setVol_keepsPlaying s _ _
  case vrampvol => exact setVol_keepsPlaying s _ _
  case vsetpan => exact setPan_keepsPlaying s _ _

theorem effect_keepsPlaying {i : Instr} {s : State} (hpool : s.poolOk) (hs : s.voicesOk)
    (hc : firstFault (checksOf s i) = none) (hi : ¬(i = .vstop ∨ i = .vfree)) : KeepsPlaying s (effectOf s i) := by
  cases hn : needsPool i with
  | true => exact effect_pool_keepsPlaying hs hn hi
  | false =>
    by_cases hp : i = .pinit
    · subst hp
      exact effect_pinit_keepsPlaying hpool hs hc
    · obtain ⟨-, -, -, -, hvoices, -⟩ := effect_pool_alone s hn hp
      exact keepsPlaying_of_voices hvoices

/-- Past the voice check, the slot a voice command acts on has the number in ARG0 (R82). -/
theorem voiceArg_val {i : Instr} {s : State} (hc : firstFault (checksOf s i) = none) (hn : needsPool i = true)
    (ha : i ≠ .valloc) : s.voiceArg.val = s.argN 0 := by
  obtain ⟨rest, hl⟩ := checksOf_voice s hn ha
  rw [hl, firstFault_eq_none] at hc
  have hv : s.validVoice (s.argN 0) = true := hc (voiceCheck s 0) (by simp [voiceChecks])
  exact voiceSlot_val (State.validVoice_lt hv).1

/-- VSTOP and VFREE leave every voice but the one ARG0 names alone (R85, R91). -/
theorem effect_stop_others {i : Instr} (hi : i = .vstop ∨ i = .vfree) (s : State) {v : Fin 32} (hv : v ≠ s.voiceArg) :
    (effectOf s i).voice v = s.voice v := by
  have hsilenced := (silenced_actsOn s s.voiceArg).others v hv
  rcases hi with rfl | rfl <;> exact hsilenced

/-- Settles O29: a fault and every effect but those of VSTOP and VFREE keep each playing voice playing, and these two write the
voice ARG0 names alone. -/
theorem playingLastsUntilStopped : Obligations.PlayingLastsUntilStopped := by
  intro i s t v ⟨_, _, hpool, hvoices, _⟩ h hv
  rcases exec_cases h with ⟨c, -, rfl⟩ | ⟨hc, rfl⟩
  · exact .inl (keepsPlaying_of_voices (State.raiseFault_voices s c) v hv)
  · by_cases hi : i = .vstop ∨ i = .vfree
    · by_cases hva : v = s.voiceArg
      · have hnum : s.voiceArg.val = s.argN 0 := by rcases hi with rfl | rfl <;> exact voiceArg_val hc rfl nofun
        exact .inr ⟨hi, by rw [hva, hnum]⟩
      · exact .inl ((congrArg Voice.playing (effect_stop_others hi s hva)).trans hv)
    · exact .inl (effect_keepsPlaying hpool hvoices hc hi v hv)

end Sys2Proof.Machine
